-- ==== Sys2Proof/Word.lean ====
section
/-! DEFINITION. The widths of the block: 32-bit words, 16-bit readings, 8-bit bytes, 11-bit offsets. -/

namespace Sys2Proof

/-- A bus data word, a time in microseconds or a delta (00_scope.md R7, R12). -/
abbrev Word := BitVec 32

/-- Half a word: `count`, `temp` and `hum` (10_state.md R25, R29). -/
abbrev Half := BitVec 16

/-- One decoded byte (10_state.md R28). -/
abbrev Byte := BitVec 8

/-- A byte offset in the register window (20_memory.md R50). -/
abbrev Offset := BitVec 11

end Sys2Proof
end

