-- ==== Sys2Proof/Config.lean ====
section
/-! DEFINITION. The parameters of one build of the block (00_scope.md R4 to R6, 10_state.md R34), and the build that the reset constant carries. -/

namespace Sys2Proof

/-- PRIO: the flag ADVANCE honours in Responding when both are set (00_scope.md R6). The first one is the spec's default. -/
inductive Prio where
  /-- FINISHED_FIRST -/
  | finishedFirst
  /-- ERROR_FIRST -/
  | errorFirst
  deriving DecidableEq, Repr, Inhabited

/-- The OPEN parameters. N and D are computed from them (`capacity`, `dataCount`). -/
structure Config where
  /-- P, the preamble edge count, 0 to 176 (R5). -/
  preamble : Fin 177
  /-- T, the HIGH-duration threshold in microseconds (R6). -/
  threshold : Word
  /-- PRIO (R6). -/
  prio : Prio
  /-- ECB_BASE, where the platform places the window (20_memory.md R50). -/
  ecbBase : Nat
  deriving DecidableEq, Repr, Inhabited

/-- The build of the block that `State.reset` carries. It has no body: the spec gives no value for any parameter
(91_not_in_source.md N1), so no proof can see one (log 1). -/
opaque Config.built : Config

end Sys2Proof
end

