-- ==== Sys2Proof/Syntax.lean ====
section
/-! DEFINITION. The operations of spec/opcode_table.json, one constructor a row. -/

namespace Sys2Proof

/-- One operation of the block. The first nine are CMD words (30_encoding.md R81, R82), then the EVT event and the two
BUS accesses. A command's only operand is the sampled time, which the state holds (R80). -/
inductive Instr where
  /-- CMD 0x0 (41_psm.md R125). -/
  | nop
  /-- CMD 0x1 (41_psm.md R126). -/
  | trigger
  /-- CMD 0x2 (41_psm.md R127). -/
  | advance
  /-- CMD 0x3 (41_psm.md R128). -/
  | forceError
  /-- CMD 0x4 (41_psm.md R129). -/
  | reset
  /-- CMD 0x5 (42_decoder.md R160). -/
  | decode
  /-- CMD 0x6 (41_psm.md R130). -/
  | handle
  /-- CMD 0x7, reserved (30_encoding.md R82). -/
  | reservedOp7
  /-- CMD 0x8 to 0xF, reserved; `low` is OP[2:0] (30_encoding.md R82). -/
  | reservedOp8F (low : BitVec 3)
  /-- One edge of the sensor line at time `t` (40_edge_capture.md R100). -/
  | edge (t : Word)
  /-- A bus read of `bytes` bytes at `addr` (20_memory.md R53). -/
  | busRead (addr : Offset) (bytes : Nat)
  /-- A bus write of `v`, `bytes` bytes wide, at `addr` (20_memory.md R54). -/
  | busWrite (addr : Offset) (bytes : Nat) (v : Word)
  deriving DecidableEq, Repr

end Sys2Proof
end

