-- ==== Sys2Proof/WellFormed.lean ====
section
/-! DEFINITION. Which terms of Instr are instructions the decoder can give: bus accesses that are 32 bits wide and
aligned, and no second spelling of a command. -/

namespace Sys2Proof

/-- The offset of CMD (10_state.md R36). -/
abbrev cmdOffset : Offset := 0x000#11

/-- A bus access that gets no bus error: 32 bits wide, `addr[1:0] = 0` (20_memory.md R51). -/
def wordAccess (addr : Offset) (bytes : Nat) : Bool :=
  bytes == 4 && addr.extractLsb' 0 2 == 0#2

/-- A write to CMD whose word has RSVD = 0 is one of the nine command rows and is written as that command (log 8). -/
def spellsCommand (addr : Offset) (v : Word) : Bool :=
  addr == cmdOffset && v.extractLsb' 4 28 == 0#28

/-- Well-formed instructions. Every command and every edge is one. -/
def Instr.wf : Instr → Bool
  | .nop | .trigger | .advance | .forceError | .reset | .decode | .handle => true
  | .reservedOp7 | .reservedOp8F _ => true
  | .edge _ => true
  | .busRead addr bytes => wordAccess addr bytes
  | .busWrite addr bytes v => wordAccess addr bytes && !spellsCommand addr v

end Sys2Proof
end

