-- ==== Sys2Proof/Decode.lean ====
section
/-! DEFINITION. What arrives at the block, how it decodes to an instruction (30_encoding.md), and the encoder, written
from the same table. -/

namespace Sys2Proof

/-- What arrives at the block, each with the `time_us` sampled when it does (00_scope.md R7, R9). The format of an
operation is known from how it arrives (30_encoding.md, Formats). -/
inductive Event where
  /-- EVT: an edge on the `edge` input. -/
  | edge (t : Word)
  /-- BUS, direction read. -/
  | busRead (t : Word) (addr : Offset) (bytes : Nat)
  /-- BUS, direction write; at offset 0 the data word is a CMD word. -/
  | busWrite (t : Word) (addr : Offset) (bytes : Nat) (v : Word)
  /-- The `rst` input goes active (70_reset_and_hazards.md R231). -/
  | rstAssert (t : Word)
  /-- The end of a hardware reset, the event R230 of 70_reset_and_hazards.md. -/
  | hwreset (t : Word)
  deriving DecidableEq, Repr

/-- Why an event decodes to no instruction. -/
inductive NoInstr where
  /-- The access is misaligned or not 32 bits wide (20_memory.md R52). -/
  | busError (addr : Offset)
  /-- The event is the assertion of `rst`. -/
  | rstAssert
  /-- The event is the end of a hardware reset: a signal, not a format (30_encoding.md, Formats). -/
  | hwreset
  deriving DecidableEq, Repr

/-- The time sampled at an event (00_scope.md R7). -/
def Event.time : Event → Word
  | .edge t => t
  | .busRead t _ _ => t
  | .busWrite t _ _ _ => t
  | .rstAssert t => t
  | .hwreset t => t

/-- A CMD row of spec/opcode_table.json. -/
structure CommandRow where
  /-- The bits the row fixes. -/
  mask : Word
  /-- Their values. -/
  pattern : Word
  /-- The instruction of a word the row matches. -/
  instr : Word → Instr

/-- Whether a word belongs to a row. -/
def CommandRow.matches (r : CommandRow) (v : Word) : Bool :=
  v &&& r.mask == r.pattern

/-- The CMD rows of spec/opcode_table.json, in its order, with its `match` and `mask` numbers. -/
def commandRows : List CommandRow :=
  [⟨0xFFFFFFFF#32, 0x00000000#32, fun _ => .nop⟩,
   ⟨0xFFFFFFFF#32, 0x00000001#32, fun _ => .trigger⟩,
   ⟨0xFFFFFFFF#32, 0x00000002#32, fun _ => .advance⟩,
   ⟨0xFFFFFFFF#32, 0x00000003#32, fun _ => .forceError⟩,
   ⟨0xFFFFFFFF#32, 0x00000004#32, fun _ => .reset⟩,
   ⟨0xFFFFFFFF#32, 0x00000005#32, fun _ => .decode⟩,
   ⟨0xFFFFFFFF#32, 0x00000006#32, fun _ => .handle⟩,
   ⟨0xFFFFFFFF#32, 0x00000007#32, fun _ => .reservedOp7⟩,
   ⟨0xFFFFFFF8#32, 0x00000008#32, fun v => .reservedOp8F (v.extractLsb' 0 3)⟩]

/-- The command a CMD word spells, by the first row that matches; none when RSVD is not 0, which is in no row. -/
def decodeCommand (v : Word) : Option Instr :=
  (commandRows.find? (·.matches v)).map (·.instr v)

/-- Decoding of an event. The bus error comes before the command (60_exceptions.md R206). A CMD word of no row stays the
bus write it is (log 8). -/
def decode : Event → Except NoInstr Instr
  | .edge t => .ok (.edge t)
  | .busRead _ addr bytes =>
    if wordAccess addr bytes then .ok (.busRead addr bytes) else .error (.busError addr)
  | .busWrite _ addr bytes v =>
    if wordAccess addr bytes then
      if addr == cmdOffset then .ok ((decodeCommand v).getD (.busWrite addr bytes v))
      else .ok (.busWrite addr bytes v)
    else .error (.busError addr)
  | .rstAssert _ => .error .rstAssert
  | .hwreset _ => .error .hwreset

/-- The word of a command (30_encoding.md, Opcode map); none for an instruction of another format. -/
def encodeCommand : Instr → Option Word
  | .nop => some 0x00000000#32
  | .trigger => some 0x00000001#32
  | .advance => some 0x00000002#32
  | .forceError => some 0x00000003#32
  | .reset => some 0x00000004#32
  | .decode => some 0x00000005#32
  | .handle => some 0x00000006#32
  | .reservedOp7 => some 0x00000007#32
  | .reservedOp8F low => some (0b00000000000000000000000000001#29 ++ low)
  | .edge _ | .busRead _ _ | .busWrite _ _ _ => none

/-- The event that carries an instruction at time `now`: a CMD write, a bus access or an edge. An edge carries its own
time. -/
def encode (now : Word) : Instr → Event
  | .edge t => .edge t
  | .busRead addr bytes => .busRead now addr bytes
  | .busWrite addr bytes v => .busWrite now addr bytes v
  | i => .busWrite now cmdOffset 4 ((encodeCommand i).getD 0)

/-- The event of a word numbered as spec/opcode_table.json numbers it. The table's bits do not say how an operation
arrives: a row of 11 bits is read as BUS_READ, and a 32-bit word as the CMD row that matches it, or else as the t of an
EDGE, the table's one other 32-bit row (log 7). -/
def tableEvent (now : Word) (nbits w : Nat) : Option Event :=
  if nbits ≤ 16 then
    if w < 2 ^ 11 then some (.busRead now (BitVec.ofNat 11 w) 4) else none
  else if nbits ≤ 32 then
    if w < 2 ^ 32 then
      match decodeCommand (BitVec.ofNat 32 w) with
      | some _ => some (.busWrite now cmdOffset 4 (BitVec.ofNat 32 w))
      | none => some (.edge (BitVec.ofNat 32 w))
    else none
  else none

/-- The instruction the decoder reads from a table word (log 7). -/
def decodeTableWord (nbits w : Nat) : Option Instr :=
  match tableEvent 0#32 nbits w with
  | some e => (decode e).toOption
  | none => none

end Sys2Proof
end

