-- ==== Sys2Proof/Machine/State.lean ====
section
/-! DEFINITION. The state of the block, the reasons a step can stop, and the state right after hardware reset. -/

namespace Sys2Proof.Machine

/-- The PSM state (10_state.md R20). -/
inductive PsmState where
  /-- Idle, code 0 -/
  | idle
  /-- Responding, code 1 -/
  | responding
  /-- Finished, code 2 -/
  | finished
  /-- Error, code 3 -/
  | error
  deriving DecidableEq, Repr

/-- Everything the spec gives the block (10_state.md R20 to R32), its parameters, and its inputs and outputs. -/
@[ext]
structure State where
  /-- The build's parameters; no event changes them (10_state.md R34; log 1). -/
  cfg : Config
  /-- The PSM state (R20). -/
  state : PsmState
  /-- A trigger is in flight (R21). -/
  triggered : Bool
  /-- The buffer has filled (R22). -/
  finished : Bool
  /-- An unexpected edge or a forced error (R23). -/
  error : Bool
  /-- The pending request for handling (R24). -/
  hreq : Bool
  /-- The next write position of the buffer (R25). -/
  count : Half
  /-- The entries of the buffer that are not empty, lowest index first (R26; log 9). -/
  deltas : List Word
  /-- The time of the last edge or accepted TRIGGER (R27). -/
  lastEdge : Word
  /-- The five decoded bytes (R28). -/
  bytes : Vector Byte 5
  /-- Temperature in tenths of a degree, two's complement (R29). -/
  temp : Half
  /-- Humidity in tenths of a percent (R29). -/
  hum : Half
  /-- A decode has been checksum-valid since hardware reset (R30). -/
  valid : Bool
  /-- This cycle's last decode passed the checksum (R31). -/
  dok : Bool
  /-- This cycle's last decode failed the checksum (R31). -/
  dcerr : Bool
  /-- The last write to CMD was rejected (R32). -/
  rej : Bool
  /-- Input: `rst` is held (70_reset_and_hazards.md R231; log 11). -/
  rst : Bool
  /-- Input: `time_us` as sampled at the current event (00_scope.md R7; log 5). -/
  timeUs : Word
  /-- Input: the events still to come, in their total order (00_scope.md R9; log 2). -/
  events : List Event
  /-- Output: the data the current event's bus read returned (20_memory.md R53; log 4). -/
  busData : Option Word
  deriving DecidableEq, Repr

/-- Why the machine stops with a fault. -/
inductive Fault where
  /-- BUS_ERROR at `addr`: a misaligned or non-32-bit bus access, raised by BUS_READ, BUS_WRITE and by the step that
  decodes one. R52 of 20_memory.md makes it the model's fault. Safe: the block itself goes on unchanged (log 15). -/
  | busError (addr : Offset)
  deriving DecidableEq, Repr

/-- Why the machine refuses. -/
inductive Refusal where
  /-- Raised by an arm of `exec` for an instruction that has no meaning yet, under its mnemonic; no arm does. Safe. -/
  | notModelled (mnemonic : String)
  deriving DecidableEq, Repr

/-- Right after hardware reset (70_reset_and_hazards.md R230). The parameters are `Config.built`; the inputs and outputs
stand at the values of log 14. -/
def State.reset : State where
  cfg := Config.built
  state := .idle
  triggered := false
  finished := false
  error := false
  hreq := false
  count := 0
  deltas := []
  lastEdge := 0
  bytes := #v[0, 0, 0, 0, 0]
  temp := 0
  hum := 0
  valid := false
  dok := false
  dcerr := false
  rej := false
  rst := false
  timeUs := 0
  events := []
  busData := none

end Sys2Proof.Machine
end

