-- ==== Sys2Proof/Machine/Operands.lean ====
section
/-! DEFINITION. The operands of the block's operations: the fields of a CMD word, the parameters N and D, the index a
DELTA offset names, the entries of the buffer, and the bits and bytes the decoder assembles from them. -/

namespace Sys2Proof.Machine

/-- D, the count of edges that belong to data bits (00_scope.md R5). -/
def dataCount : Nat := 80

/-- P (00_scope.md R5). -/
def preambleCount (c : Config) : Nat := c.preamble.val

/-- N = P + D, the capacity of the buffer (00_scope.md R5). -/
def capacity (c : Config) : Nat := preambleCount c + dataCount

/-- `OP = v[3:0]` (30_encoding.md R80). -/
def cmdOp (v : Word) : BitVec 4 := v.extractLsb' 0 4

/-- `RSVD = v[31:4]` (30_encoding.md R80). -/
def cmdRsvd (v : Word) : BitVec 28 := v.extractLsb' 4 28

/-- Whether `MemRead` and `MemWrite` go on: a 32-bit access with `addr[1:0] = 0` (20_memory.md R51, R52). -/
def aligned32 (addr : Offset) (bytes : Nat) : Bool :=
  decide (bytes = 4) && decide (addr.toNat % 4 = 0)

/-- The index of the DELTA register at an offset of the DELTA window, 0x100 to 0x4FC (20_memory.md R53). -/
def deltaIndex? (addr : Offset) : Option Nat :=
  if 0x100 ≤ addr.toNat ∧ addr.toNat ≤ 0x4FC then some ((addr.toNat - 0x100) / 4) else none

/-- Entry `i` of a buffer. An empty entry reads 0 (10_state.md R38; log 10). -/
def readDelta (ds : List Word) (i : Nat) : Word := ds.getD i 0

/-- `deltas[i] <- d`, which makes entry `i` the buffer's last (40_edge_capture.md R100). Where the entries below `i` do
not reach it, which no run shows, they are filled with 0. -/
def putDelta (ds : List Word) (i : Nat) (d : Word) : List Word :=
  ds.take i ++ List.replicate (i - ds.length) 0 ++ [d]

/-- Bit `k` of the stream, 1 when the HIGH duration of pair `k` is greater than T (42_decoder.md R161). -/
def streamBit (c : Config) (ds : List Word) (k : Nat) : Bool :=
  c.threshold.ult (readDelta ds (preambleCount c + 2 * k + 1))

/-- Byte `j`, assembled from the stream most significant bit first (42_decoder.md R162). -/
def assembleByte (bit : Nat → Bool) (j : Nat) : Byte :=
  BitVec.ofBool (bit (8 * j)) ++ BitVec.ofBool (bit (8 * j + 1)) ++ BitVec.ofBool (bit (8 * j + 2)) ++
    BitVec.ofBool (bit (8 * j + 3)) ++ BitVec.ofBool (bit (8 * j + 4)) ++ BitVec.ofBool (bit (8 * j + 5)) ++
    BitVec.ofBool (bit (8 * j + 6)) ++ BitVec.ofBool (bit (8 * j + 7))

/-- The five bytes of a full buffer, in the order humidity-high, humidity-low, temperature-high, temperature-low,
checksum (42_decoder.md R160, R162). -/
def decodeBytes (c : Config) (ds : List Word) : Vector Byte 5 :=
  let byte := assembleByte (streamBit c ds)
  #v[byte 0, byte 1, byte 2, byte 3, byte 4]

/-- Humidity in tenths of a percent, the two bytes as they come (42_decoder.md R164). -/
def humidity (bs : Vector Byte 5) : Half := bs[0] ++ bs[1]

/-- The temperature's magnitude: bit 7 of the high byte is the sign and not part of it (42_decoder.md R165). -/
def temperatureMagnitude (hi lo : Byte) : Half := (hi &&& 0x7F#8) ++ lo

/-- Temperature in tenths of a degree, from sign and magnitude to two's complement (42_decoder.md R165). -/
def temperature (bs : Vector Byte 5) : Half :=
  if bs[2].getLsbD 7 then -temperatureMagnitude bs[2] bs[3] else temperatureMagnitude bs[2] bs[3]

/-- The system address of a register's offset, the window standing at ECB_BASE (20_memory.md R50; log 13). -/
def systemAddress (c : Config) (addr : Offset) : Nat := c.ecbBase + addr.toNat

/-- The offset of a system address that lies in the window (20_memory.md R50; log 13). -/
def windowOffset (c : Config) (address : Nat) : Option Offset :=
  if c.ecbBase ≤ address ∧ address < c.ecbBase + 0x800 then some (BitVec.ofNat 11 (address - c.ecbBase)) else none

end Sys2Proof.Machine
end

