-- ==== Sys2Proof/Machine/Flags.lean ====
section
/-! DEFINITION. Every flag computation: the next-state function of the PSM, the checksum, the STATUS word, the interrupt
output. -/

namespace Sys2Proof.Machine

/-- The code of a PSM state in STATUS.STATE (10_state.md R20). -/
def psmCode : PsmState → BitVec 2
  | .idle => 0#2
  | .responding => 1#2
  | .finished => 2#2
  | .error => 3#2

/-- `next(state, triggered, finished, error)` (41_psm.md R120). -/
def nextPsm (prio : Prio) (state : PsmState) (triggered finished error : Bool) : PsmState :=
  match state with
  | .idle => if error then .error else if triggered then .responding else .idle
  | .responding =>
    match prio with
    | .finishedFirst => if finished then .finished else if error then .error else .responding
    | .errorFirst => if error then .error else if finished then .finished else .responding
  | .finished => .finished
  | .error => .error

/-- The PSM state after one evaluation of the pending flags (41_psm.md R120, R121). -/
def State.nextState (s : State) : PsmState :=
  nextPsm s.cfg.prio s.state s.triggered s.finished s.error

/-- The checksum test (42_decoder.md R163). -/
def checksumOk (bs : Vector Byte 5) : Bool :=
  (bs[0].toNat + bs[1].toNat + bs[2].toNat + bs[3].toNat) % 256 == bs[4].toNat

/-- The precondition of the edge handler: a trigger is in flight and the buffer has room (40_edge_capture.md R100). -/
def State.expectsEdge (s : State) : Bool :=
  s.triggered && decide (s.count.toNat < capacity s.cfg)

/-- The STATUS word (10_state.md R37). -/
def State.statusWord (s : State) : Word :=
  (BitVec.ofBool s.rej ++ BitVec.ofBool s.valid ++ BitVec.ofBool s.dcerr ++ BitVec.ofBool s.dok ++
    BitVec.ofBool s.hreq ++ BitVec.ofBool s.error ++ BitVec.ofBool s.finished ++ BitVec.ofBool s.triggered ++
    psmCode s.state).setWidth 32

/-- The interrupt output: `irq = hreq` at every instant (60_exceptions.md R205). -/
def State.irq (s : State) : Bool := s.hreq

end Sys2Proof.Machine
end

