-- ==== Sys2Proof/Machine/Ops.lean ====
section
/-! DEFINITION. The shared operations on the block's state: accepting and rejecting a command, the request for handling,
raising an unexpected edge and a completion, recording a delta, cleanup, the decoder's body, reading a register, and
hardware reset. -/

namespace Sys2Proof.Machine

/-- An accepted CMD write: `rej <- 0` (30_encoding.md R82). -/
def accept (s : State) : State := { s with rej := false }

/-- REJECT: `rej <- 1` and nothing else (00_scope.md R11; cause X4 of 60_exceptions.md). -/
def reject (s : State) : State := { s with rej := true }

/-- `request_handling()` (00_scope.md R11). -/
def requestHandling (s : State) : State := { s with hreq := true }

/-- `mark_error()` (41_psm.md R128). -/
def markError (s : State) : State := { s with error := true }

/-- `mark_finished()`, which only the edge handler does (30_encoding.md R83). -/
def markFinished (s : State) : State := { s with finished := true }

/-- Cause X1, the one exception the block raises towards its controller: `error` and the request are set, and no state
is saved and control goes nowhere (60_exceptions.md R200, R207). -/
def raiseUnexpectedEdge (s : State) : State := requestHandling (markError s)

/-- COMPLETION: the edge that fills the buffer (60_exceptions.md, table of causes). -/
def raiseCompletion (s : State) : State := requestHandling (markFinished s)

/-- Emptying the buffer (10_state.md R26). -/
def emptyBuffer (s : State) : State := { s with count := 0, deltas := [] }

/-- Recording one delta at the write position (40_edge_capture.md R100, R101). -/
def recordDelta (now : Word) (s : State) : State :=
  { s with deltas := putDelta s.deltas s.count.toNat (now - s.lastEdge), count := s.count + 1 }

/-- `cleanup()`, the return from error handling (41_psm.md R129, 60_exceptions.md R208). -/
def cleanup (s : State) : State :=
  emptyBuffer { s with state := .idle, triggered := false, finished := false, error := false }

/-- The start of a trigger cycle (41_psm.md R126). -/
def startCycle (now : Word) (s : State) : State :=
  { emptyBuffer s with
    triggered := true, lastEdge := now, bytes := #v[0, 0, 0, 0, 0], dok := false, dcerr := false }

/-- `state <- next(state, triggered, finished, error)` (41_psm.md R127). -/
def advancePsm (s : State) : State := { s with state := s.nextState }

/-- The outcome of a decode whose bytes pass the checksum: the Reading is replaced (42_decoder.md R164 to R166). -/
def storeReading (s : State) : State :=
  { s with hum := humidity s.bytes, temp := temperature s.bytes, valid := true, dok := true, dcerr := false }

/-- The outcome of a decode whose bytes fail it, cause X3: the Reading stays (60_exceptions.md R201). -/
def raiseChecksum (s : State) : State := { s with dok := false, dcerr := true }

/-- `decode_body()` (42_decoder.md R160). -/
def decodeBody (s : State) : State :=
  let s := { s with bytes := decodeBytes s.cfg s.deltas }
  cleanup (if checksumOk s.bytes then storeReading s else raiseChecksum s)

/-- The value `MemRead` gives at an aligned offset (20_memory.md R53). -/
def readRegister (s : State) (addr : Offset) : Word :=
  match deltaIndex? addr with
  | some i => if i < s.count.toNat then readDelta s.deltas i else 0
  | none =>
    if addr = 0x000#11 then 0
    else if addr = 0x004#11 then s.statusWord
    else if addr = 0x008#11 then s.count.setWidth 32
    else if addr = 0x00C#11 then s.bytes[0] ++ s.bytes[1] ++ s.bytes[2] ++ s.bytes[3]
    else if addr = 0x010#11 then s.bytes[4].setWidth 32
    else if addr = 0x014#11 then s.temp ++ s.hum
    else if addr = 0x018#11 then s.lastEdge
    else if addr = 0x01C#11 then BitVec.ofNat 16 (preambleCount s.cfg) ++ BitVec.ofNat 16 (capacity s.cfg)
    else if addr = 0x020#11 then s.cfg.threshold
    else 0

/-- Hardware reset: every state element to its reset value, the parameters and the inputs as they are, `rst` released
(70_reset_and_hazards.md R230, R231; log 11, log 14). -/
def hwReset (s : State) : State :=
  { State.reset with cfg := s.cfg, timeUs := s.timeUs, events := s.events }

/-- `rst` goes active. The state changes only when the reset ends (70_reset_and_hazards.md R231; log 11). -/
def assertRst (s : State) : State := { s with rst := true }

/-- An event while `rst` is held: a bus read returns 0, anything else does nothing (70_reset_and_hazards.md R231;
log 12). -/
def eventUnderRst (e : Event) (s : State) : State :=
  match e with
  | .busRead _ _ _ => { s with busData := some 0 }
  | .edge _ | .busWrite _ _ _ _ | .rstAssert _ | .hwreset _ => s

/-- Whether an event ends a hardware reset. -/
def endsReset : Event → Bool
  | .hwreset _ => true
  | .edge _ | .busRead _ _ _ | .busWrite _ _ _ _ | .rstAssert _ => false

/-- Taking an event off the input: its time is sampled (00_scope.md R7) and no bus data is shown yet (log 4). -/
def takeEvent (e : Event) (rest : List Event) (s : State) : State :=
  { s with events := rest, timeUs := e.time, busData := none }

/-- The state in which the next step's event is the one of a table word, and `rst` is released so that it acts
(log 6, log 7). -/
def placeTableWord (s : State) (nbits w : Nat) : State :=
  match tableEvent s.timeUs nbits w with
  | some e => { s with events := e :: s.events, rst := false }
  | none => s

end Sys2Proof.Machine
end

