-- ==== Sys2Proof/Machine/Psm.lean ====
section
/-! DEFINITION. The commands: those of the protocol state machine (41_psm.md), DECODE (42_decoder.md) and the reserved
opcodes (30_encoding.md R82). -/

namespace Sys2Proof.Machine

/-- NOP (41_psm.md R125). -/
def execNop (s : State) : Host.Outcome State Fault Refusal := .next (accept s)

/-- TRIGGER; `now` is the time sampled at the CMD write (41_psm.md R126). -/
def execTrigger (s : State) : Host.Outcome State Fault Refusal :=
  let s := accept s
  .next (if s.state = .idle ∧ s.triggered = false then startCycle s.timeUs s else s)

/-- ADVANCE (41_psm.md R127). -/
def execAdvance (s : State) : Host.Outcome State Fault Refusal := .next (advancePsm (accept s))

/-- FORCE_ERROR (41_psm.md R128). -/
def execForceError (s : State) : Host.Outcome State Fault Refusal := .next (markError (accept s))

/-- RESET (41_psm.md R129). -/
def execReset (s : State) : Host.Outcome State Fault Refusal := .next (cleanup (accept s))

/-- DECODE (42_decoder.md R160). -/
def execDecode (s : State) : Host.Outcome State Fault Refusal :=
  .next (if s.state = .finished then decodeBody (accept s) else reject s)

/-- HANDLE (41_psm.md R130). -/
def execHandle (s : State) : Host.Outcome State Fault Refusal :=
  let s := advancePsm { accept s with hreq := false }
  match s.state with
  | .finished => .next (decodeBody s)
  | .error => .next (cleanup s)
  | .idle | .responding => .next s

/-- A write of the reserved opcode 0x7 (30_encoding.md R82). -/
def execReservedOp7 (s : State) : Host.Outcome State Fault Refusal := .next (reject s)

/-- A write of a reserved opcode 0x8 to 0xF (30_encoding.md R82). -/
def execReservedOp8F (_low : BitVec 3) (s : State) : Host.Outcome State Fault Refusal := .next (reject s)

end Sys2Proof.Machine
end

