-- ==== Sys2Proof/Machine/Bus.lean ====
section
/-! DEFINITION. Bus reads and writes of the register window (20_memory.md) and the performing of a command word
(30_encoding.md R81). -/

namespace Sys2Proof.Machine

/-- `perform_command(v)`, after its pseudocode (30_encoding.md R81). -/
def performCommand (v : Word) (s : State) : Host.Outcome State Fault Refusal :=
  if cmdRsvd v ≠ 0 then .next (reject s)
  else if 7 ≤ (cmdOp v).toNat then .next (reject s)
  else if cmdOp v = 5 ∧ s.state ≠ .finished then .next (reject s)
  else
    match (cmdOp v).toNat with
    | 0 => execNop s
    | 1 => execTrigger s
    | 2 => execAdvance s
    | 3 => execForceError s
    | 4 => execReset s
    | 5 => execDecode s
    | _ => execHandle s

/-- BUS_READ: the data goes out on the bus and no state element changes (20_memory.md R52, R53). -/
def execBusRead (addr : Offset) (bytes : Nat) (s : State) : Host.Outcome State Fault Refusal :=
  if aligned32 addr bytes then .next { s with busData := some (readRegister s addr) } else .fault (.busError addr)

/-- BUS_WRITE: a write to CMD performs its word, any other is ignored (20_memory.md R52, R54). -/
def execBusWrite (addr : Offset) (bytes : Nat) (v : Word) (s : State) : Host.Outcome State Fault Refusal :=
  if aligned32 addr bytes then
    if addr = 0x000#11 then performCommand v s else .next s
  else .fault (.busError addr)

end Sys2Proof.Machine
end

