-- ==== Sys2Proof/Machine/Edge.lean ====
section
/-! DEFINITION. The edge capture buffer's one event (40_edge_capture.md). -/

namespace Sys2Proof.Machine

/-- The edge handler up to its last line: record the delta or raise the unexpected edge (40_edge_capture.md R100). -/
def captureEdge (now : Word) (s : State) : State :=
  if s.expectsEdge then
    let s := recordDelta now s
    if s.count.toNat = capacity s.cfg then raiseCompletion s else s
  else raiseUnexpectedEdge s

/-- EDGE (40_edge_capture.md R100 to R102). -/
def execEdge (t : Word) (s : State) : Host.Outcome State Fault Refusal :=
  .next { captureEdge t s with lastEdge := t }

end Sys2Proof.Machine
end

