-- ==== Sys2Proof/Machine/Dispatch.lean ====
section
/-! DEFINITION. One arm per constructor of Instr. -/

namespace Sys2Proof.Machine

def exec (i : Instr) (s : State) : Host.Outcome State Fault Refusal :=
  match i with
  | .nop => Sys2Proof.Machine.execNop s
  | .trigger => Sys2Proof.Machine.execTrigger s
  | .advance => Sys2Proof.Machine.execAdvance s
  | .forceError => Sys2Proof.Machine.execForceError s
  | .reset => Sys2Proof.Machine.execReset s
  | .decode => Sys2Proof.Machine.execDecode s
  | .handle => Sys2Proof.Machine.execHandle s
  | .reservedOp7 => Sys2Proof.Machine.execReservedOp7 s
  | .reservedOp8F low => Sys2Proof.Machine.execReservedOp8F low s
  | .edge t => Sys2Proof.Machine.execEdge t s
  | .busRead addr bytes => Sys2Proof.Machine.execBusRead addr bytes s
  | .busWrite addr bytes v => Sys2Proof.Machine.execBusWrite addr bytes v s

end Sys2Proof.Machine
end

