-- ==== Sys2Proof/Machine/Step.lean ====
section
/-! DEFINITION. One step: the next event of the total order (00_scope.md R9). The block fetches no instruction
(10_state.md R35), so what a step runs is what arrives. -/

namespace Sys2Proof.Machine

/-- One step. With no event to come the block holds its state (60_exceptions.md R215; log 3). While `rst` is held only
the end of the reset acts (70_reset_and_hazards.md R231). Otherwise the event is decoded and run. -/
def step (s : State) : Host.Outcome State Fault Refusal :=
  match s.events with
  | [] => .next s
  | e :: rest =>
    if s.rst && !endsReset e then .next (eventUnderRst e (takeEvent e rest s))
    else
      match decode e with
      | .ok i => exec i (takeEvent e rest s)
      | .error (.busError addr) => .fault (.busError addr)
      | .error .rstAssert => .next (assertRst (takeEvent e rest s))
      | .error .hwreset => .next (hwReset (takeEvent e rest s))

/-- The state whose next step runs the operation of a table word (log 6, log 7). -/
def State.withFetchWord (s : State) (nbits w : Nat) : State := placeTableWord s nbits w

end Sys2Proof.Machine
end

