-- ==== Sys2Proof/Machine/Script.lean ====
section
/-! DEFINITION. The command scripts and pseudo-instructions of the assembler syntax, expanded to events
(30_encoding.md R85, R86). -/

namespace Sys2Proof.Machine

/-- The operation of a script line `@t op` (30_encoding.md R85, R86). -/
inductive ScriptOp where
  | nop | trigger | advance | forceError | reset | decode | handle
  /-- A raw CMD word. -/
  | cmd (word : Word)
  | wr (off : Offset) (value : Word)
  | rd (off : Offset)
  | edge
  | hwreset
  /-- Pseudo-instruction MARK_TRIGGERED. -/
  | markTriggered
  /-- Pseudo-instruction MARK_ERROR. -/
  | markError
  /-- Pseudo-instruction CLEANUP. -/
  | cleanup
  /-- Pseudo-instruction ARM. -/
  | arm
  /-- Pseudo-instruction EDGES: edges that many microseconds after one another. -/
  | edges (ds : List Word)
  /-- Pseudo-instruction BYTES: the 80 data edges of five bytes. -/
  | bytes (bs : Vector Byte 5) (lo zero one : Word)
  deriving DecidableEq, Repr

/-- Edges at `t + d1`, `t + d1 + d2`, and so on (30_encoding.md R86). -/
def edgeEvents (t : Word) : List Word → List Event
  | [] => []
  | d :: ds => .edge (t + d) :: edgeEvents (t + d) ds

/-- The two deltas of one bit: `lo`, then `one` or `zero` (30_encoding.md R86). -/
def bitDeltas (lo zero one : Word) (bit : Bool) : List Word := [lo, if bit then one else zero]

/-- The 16 deltas of a byte, most significant bit first (30_encoding.md R86). -/
def byteDeltas (lo zero one : Word) (b : Byte) : List Word :=
  [7, 6, 5, 4, 3, 2, 1, 0].flatMap fun i => bitDeltas lo zero one (b.getLsbD i)

/-- The 80 data deltas of five bytes (30_encoding.md R86). -/
def dataDeltas (lo zero one : Word) (bs : Vector Byte 5) : List Word :=
  byteDeltas lo zero one bs[0] ++ byteDeltas lo zero one bs[1] ++ byteDeltas lo zero one bs[2] ++
    byteDeltas lo zero one bs[3] ++ byteDeltas lo zero one bs[4]

/-- A write of a word to CMD at time `t`. -/
def cmdWrite (t v : Word) : Event := .busWrite t cmdOffset 4 v

/-- The events of a script line (30_encoding.md R85, R86). -/
def ScriptOp.expand (t : Word) : ScriptOp → List Event
  | .nop => [cmdWrite t 0x00000000#32]
  | .trigger => [cmdWrite t 0x00000001#32]
  | .advance => [cmdWrite t 0x00000002#32]
  | .forceError => [cmdWrite t 0x00000003#32]
  | .reset => [cmdWrite t 0x00000004#32]
  | .decode => [cmdWrite t 0x00000005#32]
  | .handle => [cmdWrite t 0x00000006#32]
  | .cmd word => [cmdWrite t word]
  | .wr off value => [.busWrite t off 4 value]
  | .rd off => [.busRead t off 4]
  | .edge => [.edge t]
  | .hwreset => [.hwreset t]
  | .markTriggered => [cmdWrite t 0x00000001#32]
  | .markError => [cmdWrite t 0x00000003#32]
  | .cleanup => [cmdWrite t 0x00000004#32]
  | .arm => [cmdWrite t 0x00000001#32, cmdWrite t 0x00000002#32]
  | .edges ds => edgeEvents t ds
  | .bytes bs lo zero one => edgeEvents t (dataDeltas lo zero one bs)

end Sys2Proof.Machine
end

