-- ==== Sys2Proof/Safety.lean ====
section
/-! DEFINITION. What a state that a run can reach satisfies: the invariants of 10_state.md R33, and those that the
lifecycle rules of the buffer, the bytes and the Reading add to them. -/

namespace Sys2Proof.Machine

/-- The canonical form of the buffer: as many entries as `count` says (10_state.md R26; log 9). -/
def bufferWf (s : State) : Bool := s.deltas.length == s.count.toNat

/-- The five invariants of 10_state.md R33. -/
structure StatedInv (s : State) : Prop where
  /-- R33 (i) -/
  count_le : s.count.toNat ≤ capacity s.cfg
  /-- R33 (ii) -/
  finished_full : s.finished = true → s.triggered = true ∧ s.count.toNat = capacity s.cfg
  /-- R33 (iii) -/
  stateFinished_full : s.state = .finished → s.count.toNat = capacity s.cfg
  /-- R33 (iv) -/
  responding_triggered : s.state = .responding → s.triggered = true
  /-- R33 (v) -/
  idle_empty : s.state = .idle → s.triggered = false → s.count = 0 ∧ s.finished = false

/-- The invariant of every step. -/
structure Inv (s : State) : Prop extends StatedInv s where
  /-- The buffer's canonical form. -/
  buffer : bufferWf s = true
  /-- A decode sets exactly one of `dok` and `dcerr` (10_state.md R31). -/
  oneOutcome : ¬(s.dok = true ∧ s.dcerr = true)
  /-- While `dok` is set the bytes are those of a valid decode and the Reading is theirs (10_state.md R28, R29, R31). -/
  dok_reading : s.dok = true →
    checksumOk s.bytes = true ∧ s.hum = humidity s.bytes ∧ s.temp = temperature s.bytes ∧ s.valid = true
  /-- While `dcerr` is set the bytes are those that failed (10_state.md R28). -/
  dcerr_bytes : s.dcerr = true → checksumOk s.bytes = false
  /-- Before the first valid decode the Reading holds its reset value (10_state.md R30). -/
  noReading : s.valid = false → s.temp = 0 ∧ s.hum = 0
  /-- The temperature -32768 is never held (42_decoder.md R165). -/
  temp_range : s.temp ≠ 0x8000#16

end Sys2Proof.Machine
end

