-- ==== Sys2Proof/Certificates/Slice0/Obligations.lean ====
section
/-! DEFINITION. The statements for the provers, from the rules of spec/. Each docstring names the rule it formalises. -/

open Sys2Proof Sys2Proof.Machine

/-! ## Encoding and decoding -/

/-- Tier 3. For every well-formed instruction and every time, decoding the event that carries it gives it back
(30_encoding.md, Formats and Opcode map). -/
def Obligations.DecodeOfEncodeIsTheInstruction : Prop :=
  ∀ (now : Word) (i : Instr), i.wf = true → decode (encode now i) = .ok i

/-- Tier 2. What the decoder reads is well formed, and encoding it gives the event back. -/
def Obligations.EncodeOfDecodeIsTheEvent : Prop :=
  ∀ (e : Event) (i : Instr), decode e = .ok i → i.wf = true ∧ encode e.time i = e

/-- Tier 2. A word is a row of the command table exactly when RSVD is 0, and no word is in two rows
(30_encoding.md R80, R81). -/
def Obligations.CommandRowsCoverRsvdZeroOnce : Prop :=
  (∀ v : Word, (decodeCommand v).isSome = true ↔ v.toNat < 16) ∧
    commandRows.Pairwise fun r q => ∀ v : Word, ¬(r.matches v = true ∧ q.matches v = true)

/-- Tier 1. A word of every row of the opcode table, written out, decodes to the row's instruction, the reserved row 0x8 to
0xF at both its ends. Besides them, a CMD word whose RSVD is not 0, which is in no row, decodes as the bus write that
carries it: that is the model's choice, log 8. -/
def Obligations.TableWordsDecode : Prop :=
  ∀ now : Word,
    decode (.busWrite now 0x000#11 4 0b00000000000000000000000000000000#32) = .ok .nop ∧
    decode (.busWrite now 0x000#11 4 0b00000000000000000000000000000001#32) = .ok .trigger ∧
    decode (.busWrite now 0x000#11 4 0b00000000000000000000000000000010#32) = .ok .advance ∧
    decode (.busWrite now 0x000#11 4 0b00000000000000000000000000000011#32) = .ok .forceError ∧
    decode (.busWrite now 0x000#11 4 0b00000000000000000000000000000100#32) = .ok .reset ∧
    decode (.busWrite now 0x000#11 4 0b00000000000000000000000000000101#32) = .ok .decode ∧
    decode (.busWrite now 0x000#11 4 0b00000000000000000000000000000110#32) = .ok .handle ∧
    decode (.busWrite now 0x000#11 4 0b00000000000000000000000000000111#32) = .ok .reservedOp7 ∧
    decode (.busWrite now 0x000#11 4 0b00000000000000000000000000001000#32) = .ok (.reservedOp8F 0b000#3) ∧
    decode (.busWrite now 0x000#11 4 0b00000000000000000000000000001101#32) = .ok (.reservedOp8F 0b101#3) ∧
    decode (.busWrite now 0x000#11 4 0b00000000000000000000000000001111#32) = .ok (.reservedOp8F 0b111#3) ∧
    decode (.edge 0xFFFFFFF0#32) = .ok (.edge 0xFFFFFFF0#32) ∧
    decode (.busRead now 0b00100010100#11 4) = .ok (.busRead 0x114#11 4) ∧
    decode (.busWrite now 0b00000010100#11 4 0xFFFFFFFF#32) = .ok (.busWrite 0x014#11 4 0xFFFFFFFF#32) ∧
    decode (.busWrite now 0x000#11 4 0b00000000000000000000000000010111#32) =
      .ok (.busWrite 0x000#11 4 0x17#32)

/-- Tier 2. A write of a word to CMD does what the command it spells does (20_memory.md R54, 30_encoding.md R81). -/
def Obligations.CmdWritePerformsItsCommand : Prop :=
  ∀ (v : Word) (i : Instr) (s : State), decodeCommand v = some i →
    exec (.busWrite 0x000#11 4 v) s = exec i s

/-! ## The step -/

/-- Tier 1. Outside hardware reset a step runs the instruction its event decodes to, at that event's time. That the event
comes off the front of a list and that its bus data starts out as none is the model's choice (log 2, log 4). -/
def Obligations.StepRunsTheDecodedInstruction : Prop :=
  ∀ (s : State) (e : Event) (rest : List Event) (i : Instr),
    s.rst = false → s.events = e :: rest → decode e = .ok i →
    step s = exec i { s with events := rest, timeUs := e.time, busData := none }

/-- Tier 1. With no event to come, nothing changes (the model's choice, log 3, after 60_exceptions.md R215). -/
def Obligations.NoEventNoChange : Prop :=
  ∀ s : State, s.events = [] → step s = .next s

/-- Tier 2. Placing a table word makes the next step run the instruction the table word decodes to (log 6, log 7). -/
def Obligations.PlacedTableWordRunsNext : Prop :=
  ∀ (s : State) (nbits w : Nat) (i : Instr), decodeTableWord nbits w = some i →
    ∃ now : Word,
      step (s.withFetchWord nbits w) = exec i { s with rst := false, timeUs := now, busData := none }

/-- Tier 1. A misaligned access, or one that is not 32 bits wide, is a bus error with no other effect: as a meaning and
as a step, before any command is decoded (20_memory.md R52). -/
def Obligations.BusErrorHasNoOtherEffect : Prop :=
  ∀ (s : State) (addr : Offset) (bytes : Nat) (v : Word), ¬(bytes = 4 ∧ addr.toNat % 4 = 0) →
    exec (.busRead addr bytes) s = .fault (.busError addr) ∧
    exec (.busWrite addr bytes v) s = .fault (.busError addr) ∧
    ∀ (now : Word) (rest : List Event), s.rst = false →
      (s.events = .busRead now addr bytes :: rest → step s = .fault (.busError addr)) ∧
      (s.events = .busWrite now addr bytes v :: rest → step s = .fault (.busError addr))

/-- Tier 2. Every well-formed instruction completes in every state. Every term at all completes or is a bus error, and it is
a bus error only as an access that is misaligned or not 32 bits wide; so the second spelling of a command, which is not
well formed (log 8), completes too. -/
def Obligations.WellFormedInstructionsComplete : Prop :=
  (∀ (i : Instr) (s : State), i.wf = true → ∃ t, exec i s = .next t) ∧
  (∀ (i : Instr) (s : State), (∃ t, exec i s = .next t) ∨
    ∃ (addr : Offset) (bytes : Nat), (i = .busRead addr bytes ∨ ∃ v, i = .busWrite addr bytes v) ∧
      ¬(bytes = 4 ∧ addr.toNat % 4 = 0) ∧ exec i s = .fault (.busError addr)) ∧
  (∀ (v : Word) (s : State), ∃ t, exec (.busWrite 0x000#11 4 v) s = .next t)

/-! ## Hardware reset -/

/-- Tier 1. What the reset constant holds, whatever the build: every state element at its reset value, every register of
the window 0 but PARAM and THRESH, and `irq` 0 (70_reset_and_hazards.md R230). -/
def Obligations.ResetConstantHoldsResetValues : Prop :=
  State.reset.state = .idle ∧ State.reset.triggered = false ∧ State.reset.finished = false ∧
    State.reset.error = false ∧ State.reset.hreq = false ∧ State.reset.dok = false ∧ State.reset.dcerr = false ∧
    State.reset.valid = false ∧ State.reset.rej = false ∧ State.reset.count = 0 ∧ State.reset.deltas = [] ∧
    State.reset.lastEdge = 0 ∧ State.reset.bytes = #v[0, 0, 0, 0, 0] ∧ State.reset.temp = 0 ∧ State.reset.hum = 0 ∧
    State.reset.irq = false ∧
    ∀ (c : Config) (addr : Offset), addr ≠ 0x01C#11 → addr ≠ 0x020#11 →
      readRegister { State.reset with cfg := c } addr = 0

/-- Tier 2. Hardware reset, from any state at all, sets every state element to its reset value; after it every register
of the window reads 0 but PARAM and THRESH, which read as before, and `irq` is 0 (70_reset_and_hazards.md R230). That the
event comes off the front of the list of events, that it leaves the build and the rest of that list alone and that it
releases `rst` is the model's choice (log 2, log 11, log 14). -/
def Obligations.HardwareResetClearsEverything : Prop :=
  ∀ (s : State) (now : Word) (rest : List Event), s.events = .hwreset now :: rest →
    ∃ t, step s = .next t ∧
      t.state = .idle ∧ t.triggered = false ∧ t.finished = false ∧ t.error = false ∧
      t.hreq = false ∧ t.dok = false ∧ t.dcerr = false ∧ t.valid = false ∧ t.rej = false ∧
      t.count = 0 ∧ t.deltas = [] ∧ t.lastEdge = 0 ∧ t.bytes = #v[0, 0, 0, 0, 0] ∧ t.temp = 0 ∧ t.hum = 0 ∧
      t.cfg = s.cfg ∧ t.events = rest ∧ t.rst = false ∧ t.irq = false ∧
      (∀ addr : Offset, addr ≠ 0x01C#11 → addr ≠ 0x020#11 → readRegister t addr = 0) ∧
      readRegister t 0x01C#11 = readRegister s 0x01C#11 ∧ readRegister t 0x020#11 = readRegister s 0x020#11

/-- Tier 1. While `rst` is held an edge, a bus write or a second assertion changes no state element, and a bus read
returns 0 (70_reset_and_hazards.md R231; that a misaligned access is no bus error then is the model's choice, log 12). -/
def Obligations.HeldResetIgnoresEvents : Prop :=
  ∀ (s : State) (e : Event) (rest : List Event), s.rst = true → s.events = e :: rest →
    (∀ now, e ≠ .hwreset now) →
    ∃ d, step s = .next { s with events := rest, timeUs := e.time, busData := d } ∧
      (∀ now addr bytes, e = .busRead now addr bytes → d = some 0)

/-! ## Commands -/

/-- Tier 1. NOP (41_psm.md R125). -/
def Obligations.NopOnlyClearsRej : Prop :=
  (∀ now : Word, decode (.busWrite now 0x000#11 4 0x00000000#32) = .ok .nop) ∧
    ∀ s : State, exec .nop s = .next { s with rej := false }

/-- Tier 2. TRIGGER starts a cycle in Idle with `triggered = 0` and is accepted without effect otherwise; a pending error
then leads to Error (41_psm.md R126). -/
def Obligations.TriggerStartsACycle : Prop :=
  (∀ now : Word, decode (.busWrite now 0x000#11 4 0x00000001#32) = .ok .trigger) ∧
    (∀ s : State, s.state = .idle → s.triggered = false →
      exec .trigger s = .next { s with
        rej := false, triggered := true, count := 0, deltas := [], lastEdge := s.timeUs,
        bytes := #v[0, 0, 0, 0, 0], dok := false, dcerr := false }) ∧
    (∀ s : State, s.state ≠ .idle ∨ s.triggered = true → exec .trigger s = .next { s with rej := false }) ∧
    (∀ s : State, s.state = .idle → s.triggered = false → s.error = true →
      ∃ t u, exec .trigger s = .next t ∧ t.error = true ∧ exec .advance t = .next u ∧ u.state = .error)

/-- Tier 1. The next-state function, as its table has it (41_psm.md R120). -/
def Obligations.NextStateTable : Prop :=
  (∀ p t f, nextPsm p .idle t f true = .error) ∧
    (∀ p f, nextPsm p .idle true f false = .responding) ∧
    (∀ p f, nextPsm p .idle false f false = .idle) ∧
    (∀ t e, nextPsm .finishedFirst .responding t true e = .finished) ∧
    (∀ t, nextPsm .finishedFirst .responding t false true = .error) ∧
    (∀ t, nextPsm .finishedFirst .responding t false false = .responding) ∧
    (∀ t f, nextPsm .errorFirst .responding t f true = .error) ∧
    (∀ t, nextPsm .errorFirst .responding t true false = .finished) ∧
    (∀ t, nextPsm .errorFirst .responding t false false = .responding) ∧
    (∀ p t f e, nextPsm p .finished t f e = .finished) ∧
    (∀ p t f e, nextPsm p .error t f e = .error)

/-- Tier 1. ADVANCE applies the next-state function once and changes nothing else but `rej` (41_psm.md R127). -/
def Obligations.AdvanceAppliesNextOnce : Prop :=
  (∀ now : Word, decode (.busWrite now 0x000#11 4 0x00000002#32) = .ok .advance) ∧
    (∀ s : State, exec .advance s = .next { s with
      rej := false, state := nextPsm s.cfg.prio s.state s.triggered s.finished s.error }) ∧
    (∀ s : State, s.state = .finished ∨ s.state = .error → exec .advance s = .next { s with rej := false }) ∧
    (∀ s : State, s.state = .responding → s.finished = false → s.error = false →
      exec .advance s = .next { s with rej := false }) ∧
    (∀ s : State, s.state = .responding → s.finished = true → s.error = true →
      exec .advance s = .next { s with
        rej := false,
        state := match s.cfg.prio with | .finishedFirst => .finished | .errorFirst => .error })

/-- Tier 1. From Idle with `triggered` and `finished` set and no error, as when all edges come before the first ADVANCE, one
ADVANCE gives Responding and a second gives Finished (41_psm.md R121). -/
def Obligations.TwoAdvancesFromIdleToFinished : Prop :=
  ∀ s : State, s.state = .idle → s.triggered = true → s.finished = true → s.error = false →
    exec .advance s = .next { s with rej := false, state := .responding } ∧
    exec .advance { s with rej := false, state := .responding } =
      .next { s with rej := false, state := .finished }

/-- Tier 2. FORCE_ERROR (41_psm.md R128). -/
def Obligations.ForceErrorSetsOnlyTheFlag : Prop :=
  (∀ now : Word, decode (.busWrite now 0x000#11 4 0x00000003#32) = .ok .forceError) ∧
    (∀ s : State, exec .forceError s = .next { s with rej := false, error := true }) ∧
    (∀ s t u : State, exec .forceError s = .next t → exec .advance t = .next u →
      (s.state = .idle → u.state = .error) ∧
      (s.state = .responding → ¬(s.finished = true ∧ s.cfg.prio = .finishedFirst) → u.state = .error) ∧
      (s.state = .finished ∨ s.state = .error → u.state = s.state)) ∧
    (∀ s t u : State, s.state = .responding → exec .forceError s = .next t → exec .handle t = .next u →
      u.state = .idle ∧ u.count = 0 ∧ u.triggered = false ∧ u.finished = false ∧ u.error = false)

/-- Tier 2. RESET is cleanup, in every state; on an Idle block with all flags clear it changes `rej` only; an edge after it
is unexpected until the next TRIGGER (41_psm.md R129). -/
def Obligations.ResetIsCleanupInEveryState : Prop :=
  (∀ now : Word, decode (.busWrite now 0x000#11 4 0x00000004#32) = .ok .reset) ∧
    (∀ s : State, exec .reset s = .next { s with
      rej := false, state := .idle, triggered := false, finished := false, error := false,
      count := 0, deltas := [] }) ∧
    (∀ s : State, StatedInv s → bufferWf s = true → s.state = .idle → s.triggered = false → s.finished = false →
      s.error = false → exec .reset s = .next { s with rej := false }) ∧
    (∀ (s t : State) (n : Word), exec .reset s = .next t →
      exec (.edge n) t = .next { t with error := true, hreq := true, lastEdge := n })

/-- Tier 2. HANDLE advances once; at Finished it decodes, at Error it cleans up, elsewhere it does nothing more; it
clears `hreq`, does not depend on it, and ends in Idle or Responding (41_psm.md R130). -/
def Obligations.HandleAdvancesAndDispatches : Prop :=
  (∀ now : Word, decode (.busWrite now 0x000#11 4 0x00000006#32) = .ok .handle) ∧
    (∀ s : State, nextPsm s.cfg.prio s.state s.triggered s.finished s.error = .finished →
      exec .handle s = exec .decode { s with hreq := false, state := .finished }) ∧
    (∀ s : State, nextPsm s.cfg.prio s.state s.triggered s.finished s.error = .error →
      exec .handle s = .next { s with
        rej := false, hreq := false, state := .idle, triggered := false, finished := false, error := false,
        count := 0, deltas := [] }) ∧
    (∀ s : State, nextPsm s.cfg.prio s.state s.triggered s.finished s.error = .responding →
      exec .handle s = .next { s with rej := false, hreq := false, state := .responding }) ∧
    (∀ s : State, nextPsm s.cfg.prio s.state s.triggered s.finished s.error = .idle →
      exec .handle s = .next { s with rej := false, hreq := false, state := .idle }) ∧
    (∀ (s : State) (b : Bool), exec .handle { s with hreq := b } = exec .handle s) ∧
    (∀ s : State, ∃ t, exec .handle s = .next t ∧ t.hreq = false ∧ t.rej = false ∧
      (t.state = .idle ∨ t.state = .responding))

/-- Tier 2. DECODE in Finished: the bytes, bit by bit, the two numbers of the Reading, and the whole next state on a
matching checksum and on another; outside Finished it is rejected, and a second DECODE always is (42_decoder.md R160). -/
def Obligations.DecodeStoresOrFlags : Prop :=
  (∀ now : Word, decode (.busWrite now 0x000#11 4 0x00000005#32) = .ok .decode) ∧
    (∀ s : State, s.state ≠ .finished → exec .decode s = .next { s with rej := true }) ∧
    (∀ s : State, s.state = .finished → ∃ (bs : Vector Byte 5) (hum temp : Half),
      (∀ j : Fin 5, bs[j].toNat =
        ∑ i ∈ Finset.range 8,
          (if s.cfg.threshold.toNat < (readDelta s.deltas (preambleCount s.cfg + 2 * (8 * j.val + i) + 1)).toNat then
            2 ^ (7 - i) else 0)) ∧
      hum.toNat = bs[0].toNat * 256 + bs[1].toNat ∧
      (bs[2].toNat < 128 → temp.toInt = (bs[2].toNat * 256 + bs[3].toNat : Nat)) ∧
      (128 ≤ bs[2].toNat → temp.toInt = -(((bs[2].toNat - 128) * 256 + bs[3].toNat : Nat) : Int)) ∧
      ((bs[0].toNat + bs[1].toNat + bs[2].toNat + bs[3].toNat) % 256 = bs[4].toNat →
        exec .decode s = .next { s with
          rej := false, bytes := bs, hum := hum, temp := temp, valid := true,
          dok := true, dcerr := false, state := .idle, triggered := false, finished := false, error := false,
          count := 0, deltas := [] }) ∧
      ((bs[0].toNat + bs[1].toNat + bs[2].toNat + bs[3].toNat) % 256 ≠ bs[4].toNat →
        exec .decode s = .next { s with
          rej := false, bytes := bs, dok := false, dcerr := true, state := .idle, triggered := false,
          finished := false, error := false, count := 0, deltas := [] })) ∧
    (∀ s t : State, s.state = .finished → exec .decode s = .next t →
      exec .decode t = .next { t with rej := true })

/-- Tier 2. A CMD write is rejected exactly under the three conditions; a rejected one sets `rej` and changes nothing
else, an accepted one clears it (30_encoding.md R82). -/
def Obligations.RejectionSetsOnlyRej : Prop :=
  (∀ (v : Word) (s : State),
    16 ≤ v.toNat ∨ 7 ≤ v.toNat % 16 ∨ (v.toNat % 16 = 5 ∧ s.state ≠ .finished) →
    exec (.busWrite 0x000#11 4 v) s = .next { s with rej := true }) ∧
  (∀ (v : Word) (s : State),
    ¬(16 ≤ v.toNat ∨ 7 ≤ v.toNat % 16 ∨ (v.toNat % 16 = 5 ∧ s.state ≠ .finished)) →
    ∃ t, exec (.busWrite 0x000#11 4 v) s = .next t ∧ t.rej = false) ∧
  (∀ s : State, exec .reservedOp7 s = .next { s with rej := true }) ∧
  (∀ (low : BitVec 3) (s : State), exec (.reservedOp8F low) s = .next { s with rej := true })

/-! ## The edge -/

/-- Tier 2. EDGE: recorded when a trigger is in flight and the buffer has room, with completion when it fills; else
unexpected, without touching the buffer. In every case `last_edge` becomes the edge's time (40_edge_capture.md R100). -/
def Obligations.EdgeIsRecordedOrUnexpected : Prop :=
  ∀ (s : State) (n : Word),
    (s.triggered = true → s.count.toNat < capacity s.cfg →
      ∃ t, exec (.edge n) s = .next t ∧
        readDelta t.deltas s.count.toNat = n - s.lastEdge ∧
        (∀ j, j < s.count.toNat → readDelta t.deltas j = readDelta s.deltas j) ∧
        t.deltas.length = s.count.toNat + 1 ∧ t.count.toNat = s.count.toNat + 1 ∧ t.lastEdge = n ∧
        (s.count.toNat + 1 = capacity s.cfg →
          t = { s with deltas := t.deltas, count := t.count, finished := true, hreq := true, lastEdge := n }) ∧
        (s.count.toNat + 1 ≠ capacity s.cfg →
          t = { s with deltas := t.deltas, count := t.count, lastEdge := n })) ∧
    (s.triggered = false ∨ capacity s.cfg ≤ s.count.toNat →
      exec (.edge n) s = .next { s with error := true, hreq := true, lastEdge := n })

/-- Tier 2. The first delta of a cycle is measured from the accepted TRIGGER, modulo 2^32 (40_edge_capture.md R101, R105):
for an edge right after it, and for an edge after any number of steps that take no edge, while the cycle is in flight all
along. A step that takes no edge in a cycle keeps `last_edge`, `count` and the buffer. -/
def Obligations.FirstDeltaIsMeasuredFromTrigger : Prop :=
  (∀ (s t u : State) (n : Word), s.state = .idle → s.triggered = false →
    exec .trigger s = .next t → exec (.edge n) t = .next u →
    u.count = 1 ∧ u.deltas.length = 1 ∧
      (readDelta u.deltas 0).toNat = (n.toNat + 2 ^ 32 - s.timeUs.toNat) % 2 ^ 32) ∧
  (∀ s t : State, s.triggered = true → (∀ n rest, s.events ≠ .edge n :: rest) → step s = .next t →
    t.triggered = true → t.lastEdge = s.lastEdge ∧ t.count = s.count ∧ t.deltas = s.deltas) ∧
  (∀ (s t u v : State) (k : Nat) (n : Word) (rest : List Event), s.state = .idle → s.triggered = false →
    exec .trigger s = .next t →
    (∀ e ∈ t.events.take k, ∀ m, e ≠ .edge m) →
    (∀ j w, j ≤ k → Host.Core.run core j t = .next w → w.triggered = true) →
    Host.Core.run core k t = .next u → u.rst = false → u.events = .edge n :: rest → step u = .next v →
    v.count = 1 ∧ v.deltas.length = 1 ∧
      (readDelta v.deltas 0).toNat = (n.toNat + 2 ^ 32 - s.timeUs.toNat) % 2 ^ 32)

/-- Tier 2. What an edge leaves alone in the register window: every register reads as before but STATUS, COUNT, LAST_EDGE
and the DELTA register at the write position (40_edge_capture.md R100, 20_memory.md R53). -/
def Obligations.EdgeLeavesOtherRegisters : Prop :=
  ∀ (s t : State) (n : Word) (addr : Offset), exec (.edge n) s = .next t →
    addr ≠ 0x004#11 → addr ≠ 0x008#11 → addr ≠ 0x018#11 → deltaIndex? addr ≠ some s.count.toNat →
    readRegister t addr = readRegister s addr

/-- Tier 2. Edges at the times that the pseudo-instruction EDGES gives are recorded as exactly the deltas it lists, in
order, while they fit; the buffer full sets `finished` (30_encoding.md R86, 40_edge_capture.md R100, R101). -/
def Obligations.EdgesAreRecordedInOrder : Prop :=
  ∀ (s : State) (ds : List Word) (rest : List Event),
    s.rst = false → s.triggered = true → bufferWf s = true → s.count.toNat + ds.length ≤ capacity s.cfg →
    s.events = edgeEvents s.lastEdge ds ++ rest →
    ∃ t, Host.Core.run core ds.length s = .next t ∧ t.count.toNat = s.count.toNat + ds.length ∧
      t = { s with
        deltas := s.deltas ++ ds, count := t.count, lastEdge := s.lastEdge + ds.sum, events := rest,
        finished := s.finished || decide (ds ≠ [] ∧ s.count.toNat + ds.length = capacity s.cfg),
        hreq := s.hreq || decide (ds ≠ [] ∧ s.count.toNat + ds.length = capacity s.cfg),
        timeUs := t.timeUs, busData := t.busData }

/-! ## The decoder -/

/-- Tier 2. Byte j is the sum over its eight bits, first bit weighing most, and bit k is 1 exactly when the second delta
of pair k is greater than T (42_decoder.md R161, R162). -/
def Obligations.BytesAreTheStreamBits : Prop :=
  ∀ (c : Config) (ds : List Word) (j : Fin 5),
    ((decodeBytes c ds)[j]).toNat =
      ∑ i ∈ Finset.range 8,
        (if c.threshold.toNat < (readDelta ds (preambleCount c + 2 * (8 * j.val + i) + 1)).toNat then 2 ^ (7 - i)
          else 0)

/-- Tier 2. The decoder reads the second delta of each data pair and nothing else: two buffers that agree there give the
same bytes, whatever the preamble and the LOW durations are (42_decoder.md R161, 40_edge_capture.md R105). -/
def Obligations.DecoderReadsOnlyHighDurations : Prop :=
  ∀ (c : Config) (ds es : List Word),
    (∀ k, k < 40 → readDelta ds (preambleCount c + 2 * k + 1) = readDelta es (preambleCount c + 2 * k + 1)) →
    decodeBytes c ds = decodeBytes c es

/-- Tier 2. A buffer that holds any preamble of P deltas and then the waveform of five bytes decodes to those bytes, for
every threshold that lies between the two HIGH durations (42_decoder.md R161, R162, 30_encoding.md R86). -/
def Obligations.WaveformDecodesToItsBytes : Prop :=
  ∀ (c : Config) (pre : List Word) (bs : Vector Byte 5) (lo zero one : Word),
    pre.length = preambleCount c → zero.toNat ≤ c.threshold.toNat → c.threshold.toNat < one.toNat →
    decodeBytes c (pre ++ dataDeltas lo zero one bs) = bs

/-- Tier 2. The humidity that a decode stores is the big-endian combination of the first two bytes it leaves
(42_decoder.md R164). -/
def Obligations.HumidityIsBigEndian : Prop :=
  ∀ s t : State, s.state = .finished → exec .decode s = .next t → t.dok = true →
    t.hum.toNat = t.bytes[0].toNat * 256 + t.bytes[1].toNat

/-- Tier 2. The temperature that a decode stores is the magnitude of the low 15 bits, negated when bit 7 of the high byte is
set; its range is -32767 to 32767, and negative zero is zero (42_decoder.md R165). -/
def Obligations.TemperatureIsSignMagnitude : Prop :=
  ∀ s t : State, s.state = .finished → exec .decode s = .next t → t.dok = true →
    (t.bytes[2].getLsbD 7 = false → t.temp.toInt = (t.bytes[2].toNat % 128 * 256 + t.bytes[3].toNat : Nat)) ∧
    (t.bytes[2].getLsbD 7 = true → t.temp.toInt = -((t.bytes[2].toNat % 128 * 256 + t.bytes[3].toNat : Nat) : Int)) ∧
    -32767 ≤ t.temp.toInt ∧ t.temp.toInt ≤ 32767 ∧ t.temp ≠ 0x8000#16 ∧
    (t.bytes[2] = 0x80#8 → t.bytes[3] = 0x00#8 → t.temp = 0) ∧
    (t.bytes[2] = 0xFF#8 → t.bytes[3] = 0xFF#8 → t.temp = 0x8001#16)

/-- Tier 2. A full buffer whose every HIGH duration is at most T decodes to zero bytes and is stored as temperature 0 and
humidity 0 (42_decoder.md R163). -/
def Obligations.AllLowBufferStoresZeroReading : Prop :=
  ∀ s : State, s.state = .finished →
    (∀ k, k < 40 →
      (readDelta s.deltas (preambleCount s.cfg + 2 * k + 1)).toNat ≤ s.cfg.threshold.toNat) →
    ∃ t, exec .decode s = .next t ∧ t.bytes = #v[0, 0, 0, 0, 0] ∧ t.temp = 0 ∧ t.hum = 0 ∧ t.valid = true ∧
      t.dok = true ∧ t.dcerr = false

/-- Tier 2. A whole reading: from Responding with an empty buffer, the edges of any preamble and of the waveform of five
bytes and then HANDLE leave those bytes decoded, the block in Idle with no request pending, and the Reading replaced
when the checksum holds and kept when it does not, for both values of PRIO (95_test_vectors.md L1-1, L1-2). -/
def Obligations.WholeCycleReadsTheSentBytes : Prop :=
  ∀ (s : State) (pre : List Word) (bs : Vector Byte 5) (lo zero one now : Word) (rest : List Event),
    s.rst = false → s.state = .responding → s.triggered = true → s.error = false → s.count = 0 →
    pre.length = preambleCount s.cfg → zero.toNat ≤ s.cfg.threshold.toNat → s.cfg.threshold.toNat < one.toNat →
    s.events = edgeEvents s.lastEdge (pre ++ dataDeltas lo zero one bs) ++ cmdWrite now 0x00000006#32 :: rest →
    ∃ t, Host.Core.run core (capacity s.cfg + 1) s = .next t ∧
      t.events = rest ∧ t.state = .idle ∧ t.triggered = false ∧ t.finished = false ∧ t.error = false ∧
      t.hreq = false ∧ t.count = 0 ∧ t.bytes = bs ∧
      ((bs[0].toNat + bs[1].toNat + bs[2].toNat + bs[3].toNat) % 256 = bs[4].toNat →
        t.hum = humidity bs ∧ t.temp = temperature bs ∧ t.valid = true ∧ t.dok = true ∧ t.dcerr = false) ∧
      ((bs[0].toNat + bs[1].toNat + bs[2].toNat + bs[3].toNat) % 256 ≠ bs[4].toNat →
        t.hum = s.hum ∧ t.temp = s.temp ∧ t.valid = s.valid ∧ t.dok = false ∧ t.dcerr = true)

/-! ## The bus -/

/-- Tier 2. A read of each register returns what the register map gives, and changes no state element
(20_memory.md R53). -/
def Obligations.BusReadReturnsTheRegister : Prop :=
  ∀ s : State,
    exec (.busRead 0x000#11 4) s = .next { s with busData := some 0 } ∧
    exec (.busRead 0x004#11 4) s = .next { s with busData := some s.statusWord } ∧
    exec (.busRead 0x008#11 4) s = .next { s with busData := some (s.count.setWidth 32) } ∧
    exec (.busRead 0x00C#11 4) s =
      .next { s with busData := some (s.bytes[0] ++ s.bytes[1] ++ s.bytes[2] ++ s.bytes[3]) } ∧
    exec (.busRead 0x010#11 4) s = .next { s with busData := some (s.bytes[4].setWidth 32) } ∧
    exec (.busRead 0x014#11 4) s = .next { s with busData := some (s.temp ++ s.hum) } ∧
    exec (.busRead 0x018#11 4) s = .next { s with busData := some s.lastEdge } ∧
    exec (.busRead 0x01C#11 4) s =
      .next { s with busData := some (BitVec.ofNat 32 (s.cfg.preamble.val * 65536 + (s.cfg.preamble.val + 80))) } ∧
    exec (.busRead 0x020#11 4) s = .next { s with busData := some s.cfg.threshold } ∧
    (∀ i : Fin 256, exec (.busRead (BitVec.ofNat 11 (0x100 + 4 * i.val)) 4) s =
      .next { s with busData := some (if i.val < s.count.toNat then readDelta s.deltas i.val else 0) }) ∧
    (∀ addr : Offset, addr.toNat % 4 = 0 →
      (0x024 ≤ addr.toNat ∧ addr.toNat < 0x100) ∨ 0x500 ≤ addr.toNat →
      exec (.busRead addr 4) s = .next { s with busData := some 0 }) ∧
    (∀ (addr : Offset) (bytes : Nat), ¬(bytes = 4 ∧ addr.toNat % 4 = 0) →
      exec (.busRead addr bytes) s = .fault (.busError addr))

/-- Tier 2. STATUS, bit by bit, with its reserved bits 0; it reads so at its offset, is 0 after reset, and a write to it
changes nothing (10_state.md R37). -/
def Obligations.StatusMirrorsTheState : Prop :=
  State.reset.statusWord = 0 ∧ ∀ s : State,
    readRegister s 0x004#11 = s.statusWord ∧ (∀ v : Word, exec (.busWrite 0x004#11 4 v) s = .next s) ∧
    s.statusWord.toNat % 4 =
      (match s.state with | .idle => 0 | .responding => 1 | .finished => 2 | .error => 3) ∧
    s.statusWord.getLsbD 2 = s.triggered ∧ s.statusWord.getLsbD 3 = s.finished ∧
    s.statusWord.getLsbD 4 = s.error ∧ s.statusWord.getLsbD 5 = s.hreq ∧
    s.statusWord.getLsbD 6 = s.dok ∧ s.statusWord.getLsbD 7 = s.dcerr ∧ s.statusWord.getLsbD 8 = s.valid ∧
    s.statusWord.getLsbD 9 = s.rej ∧ (∀ k, 10 ≤ k → s.statusWord.getLsbD k = false)

/-- Tier 2. An aligned 32-bit write to any offset but CMD changes nothing, and a write to CMD performs its word
(20_memory.md R54). -/
def Obligations.OnlyCmdWritesAct : Prop :=
  (∀ (s : State) (addr : Offset) (v : Word), addr.toNat % 4 = 0 → addr ≠ 0x000#11 →
    exec (.busWrite addr 4 v) s = .next s) ∧
  (∀ (s : State) (v : Word), exec (.busWrite 0x000#11 4 v) s = performCommand v s) ∧
  (∀ (s : State) (addr : Offset) (bytes : Nat) (v : Word), ¬(bytes = 4 ∧ addr.toNat % 4 = 0) →
    exec (.busWrite addr bytes v) s = .fault (.busError addr))

/-- Tier 2. Commands leave the rest of the window alone: NOP, FORCE_ERROR, ADVANCE and the reserved opcodes change at
most STATUS, and a read or an ignored write changes no register (41_psm.md R125, R127, R128, 30_encoding.md R82,
20_memory.md R55). -/
def Obligations.FlagCommandsLeaveOtherRegisters : Prop :=
  ∀ (s t : State) (i : Instr) (addr : Offset), exec i s = .next t →
    ((i = .nop ∨ i = .forceError ∨ i = .advance ∨ i = .reservedOp7 ∨ ∃ low, i = .reservedOp8F low) →
      addr ≠ 0x004#11 → readRegister t addr = readRegister s addr) ∧
    (((∃ a n, i = .busRead a n) ∨ ∃ a n v, i = .busWrite a n v ∧ a ≠ 0x000#11) →
      readRegister t addr = readRegister s addr)

/-- Tier 1. Writing TRIGGER twice ends in the same state as writing it once, and the second of two DECODEs is rejected
(20_memory.md R55). -/
def Obligations.SecondTriggerChangesNothing : Prop :=
  (∀ s t : State, exec .trigger s = .next t → exec .trigger t = .next t) ∧
    (∀ s t : State, exec .decode s = .next t → exec .decode t = .next { t with rej := true })

/-- Tier 2. The window takes up 0x800 bytes from ECB_BASE: each offset has one system address, and an address outside
reaches no register (20_memory.md R50; the computation is the model's, log 13). -/
def Obligations.WindowStandsAtEcbBase : Prop :=
  ∀ c : Config,
    (∀ addr : Offset, windowOffset c (systemAddress c addr) = some addr) ∧
    (∀ (a : Nat) (addr : Offset), windowOffset c a = some addr → systemAddress c addr = a) ∧
    (∀ a : Nat, windowOffset c a = none ↔ a < c.ecbBase ∨ c.ecbBase + 0x7FF < a)

/-! ## Rules about every instruction and every step -/

/-- Tier 3. Every step from a state that satisfies the invariant leads to one that does (10_state.md R33 and the
lifecycle rules R26 to R31; 42_decoder.md R165). -/
def Obligations.StepKeepsTheInvariant : Prop :=
  ∀ s t : State, Inv s → step s = .next t → Inv t

/-- Tier 1. The state after reset satisfies the invariant, for every build and every list of events. -/
def Obligations.ResetSatisfiesTheInvariant : Prop :=
  ∀ (c : Config) (events : List Event), Inv { State.reset with cfg := c, events := events }

/-- Tier 2. Every state that a run reaches from reset, on any build and any list of events, satisfies the five
invariants of 10_state.md R33, which the spec derives from R100, R120, R126, R129 and R160. -/
def Obligations.ReachableStatesSatisfyTheStatedInvariants : Prop :=
  ∀ (c : Config) (events : List Event) (k : Nat) (t : State),
    Host.Core.run core k { State.reset with cfg := c, events := events } = .next t →
    t.count.toNat ≤ capacity c ∧
      (t.finished = true → t.triggered = true ∧ t.count.toNat = capacity c) ∧
      (t.state = .finished → t.count.toNat = capacity c) ∧
      (t.state = .responding → t.triggered = true) ∧
      (t.state = .idle → t.triggered = false → t.count = 0 ∧ t.finished = false)

/-- Tier 2. No event changes a parameter, and so PARAM and THRESH are constant (10_state.md R34, R40). -/
def Obligations.ParametersNeverChange : Prop :=
  ∀ s t : State, step s = .next t →
    t.cfg = s.cfg ∧ readRegister t 0x01C#11 = readRegister s 0x01C#11 ∧
      readRegister t 0x020#11 = readRegister s 0x020#11

/-- Tier 2. ADVANCE writes no flag, and a flag stays set until cleanup or hardware reset: a step that drops `triggered`,
`finished` or `error` leaves the block in Idle with all three clear and the buffer empty (41_psm.md R122). -/
def Obligations.FlagsFallOnlyTogether : Prop :=
  (∀ s : State, ∃ t, exec .advance s = .next t ∧
    t.triggered = s.triggered ∧ t.finished = s.finished ∧ t.error = s.error) ∧
  ∀ s t : State, step s = .next t →
    (s.triggered = true ∧ t.triggered = false) ∨ (s.finished = true ∧ t.finished = false) ∨
      (s.error = true ∧ t.error = false) →
    t.state = .idle ∧ t.triggered = false ∧ t.finished = false ∧ t.error = false ∧ t.count = 0 ∧ t.deltas = []

/-- Tier 2. Only an edge sets `finished`, the one that fills the buffer; no command does (10_state.md R22,
30_encoding.md R83). -/
def Obligations.OnlyTheFillingEdgeSetsFinished : Prop :=
  ∀ (i : Instr) (s t : State), exec i s = .next t → s.finished = false → t.finished = true →
    (∃ n, i = .edge n) ∧ s.triggered = true ∧ s.count.toNat + 1 = capacity s.cfg ∧
      t.count.toNat = capacity s.cfg ∧ t.hreq = true

/-- Tier 2. Only HANDLE clears `hreq` (or a hardware reset), and only an edge sets it, one that is unexpected or one that
fills the buffer (10_state.md R24, 60_exceptions.md R205). -/
def Obligations.RequestIsSetByEdgesAndClearedByHandle : Prop :=
  (∀ (i : Instr) (s t : State), exec i s = .next t → s.hreq = true → t.hreq = false →
    i = .handle ∨ i = .busWrite 0x000#11 4 0x00000006#32) ∧
  (∀ (i : Instr) (s t : State), exec i s = .next t → s.hreq = false → t.hreq = true →
    (∃ n, i = .edge n) ∧
      (s.triggered = false ∨ capacity s.cfg ≤ s.count.toNat ∨ s.count.toNat + 1 = capacity s.cfg)) ∧
  (∀ s t : State, step s = .next t → s.hreq = true → t.hreq = false →
    (∃ now rest, s.events = .hwreset now :: rest) ∨
      ∃ now rest, s.events = .busWrite now 0x000#11 4 0x00000006#32 :: rest)

/-- Tier 2. Only a command moves the PSM: ADVANCE, RESET, DECODE or HANDLE (10_state.md R20, 40_edge_capture.md R100). -/
def Obligations.OnlyFourCommandsMoveThePsm : Prop :=
  ∀ (i : Instr) (s t : State), exec i s = .next t → t.state ≠ s.state →
    (i = .advance ∨ i = .busWrite 0x000#11 4 0x00000002#32) ∨
      (i = .reset ∨ i = .busWrite 0x000#11 4 0x00000004#32) ∨
      (i = .decode ∨ i = .busWrite 0x000#11 4 0x00000005#32) ∨
      (i = .handle ∨ i = .busWrite 0x000#11 4 0x00000006#32)

/-- Tier 2. The Reading and `valid` change only by a decode whose bytes pass the checksum, in Finished, and then all are
those of the bytes; `valid` never falls (10_state.md R29, R30, 42_decoder.md R166). -/
def Obligations.ReadingChangesOnlyByAValidDecode : Prop :=
  ∀ (i : Instr) (s t : State), exec i s = .next t →
    (t.temp ≠ s.temp ∨ t.hum ≠ s.hum ∨ t.valid ≠ s.valid) →
    (s.state = .finished ∨ nextPsm s.cfg.prio s.state s.triggered s.finished s.error = .finished) ∧
      t.bytes = decodeBytes s.cfg s.deltas ∧
      (t.bytes[0].toNat + t.bytes[1].toNat + t.bytes[2].toNat + t.bytes[3].toNat) % 256 = t.bytes[4].toNat ∧
      t.temp = temperature t.bytes ∧ t.hum = humidity t.bytes ∧ t.valid = true ∧ t.dok = true

/-- Tier 2. A buffer entry is written only by an edge, at the write position; everything else leaves the buffer or empties
it (10_state.md R26). -/
def Obligations.OnlyEdgesWriteTheBuffer : Prop :=
  ∀ (i : Instr) (s t : State), exec i s = .next t →
    (t.deltas = s.deltas ∧ t.count = s.count) ∨ (t.deltas = [] ∧ t.count = 0) ∨
      ∃ n, i = .edge n ∧ s.triggered = true ∧ s.count.toNat < capacity s.cfg ∧
        readDelta t.deltas s.count.toNat = n - s.lastEdge ∧ t.count.toNat = s.count.toNat + 1 ∧
        ∀ j, j < s.count.toNat → readDelta t.deltas j = readDelta s.deltas j

/-- Tier 2. At most one trigger cycle is in flight: `triggered` rises only by TRIGGER in Idle with `triggered = 0`
(41_psm.md R131). -/
def Obligations.CyclesStartOnlyFromIdle : Prop :=
  (∀ (i : Instr) (s t : State), exec i s = .next t → s.triggered = false → t.triggered = true →
    s.state = .idle ∧ t.count = 0 ∧ t.deltas = [] ∧
      (i = .trigger ∨ i = .busWrite 0x000#11 4 0x00000001#32)) ∧
  (∀ s : State, ¬(s.state = .idle ∧ s.triggered = false) → exec .trigger s = .next { s with rej := false })

/-- Tier 2. A buffer that is not full is never decoded: no decode outcome and no Reading can appear, and the bytes can only
be cleared by a TRIGGER (41_psm.md R132). -/
def Obligations.PartialBufferIsNeverDecoded : Prop :=
  ∀ (i : Instr) (s t : State), StatedInv s → s.count.toNat < capacity s.cfg → exec i s = .next t →
    t.temp = s.temp ∧ t.hum = s.hum ∧ t.valid = s.valid ∧
      ((t.bytes = s.bytes ∧ t.dok = s.dok ∧ t.dcerr = s.dcerr) ∨
        (t.bytes = #v[0, 0, 0, 0, 0] ∧ t.dok = false ∧ t.dcerr = false ∧
          (i = .trigger ∨ i = .busWrite 0x000#11 4 0x00000001#32)))

/-- Tier 2. Recovery from an unexpected edge in Idle: `error` and the request are raised, and HANDLE cleans up and leaves
an Idle block with no data produced (60_exceptions.md R200, R208). -/
def Obligations.HandleRecoversFromAStrayEdge : Prop :=
  ∀ (s t u : State) (n : Word), s.state = .idle → s.triggered = false →
    exec (.edge n) s = .next t → exec .handle t = .next u →
    t.error = true ∧ t.hreq = true ∧ t.deltas = s.deltas ∧
      u = { s with
        rej := false, hreq := false, finished := false, error := false, count := 0, deltas := [], lastEdge := n }

/-- Tier 1. RESET leaves a pending request pending, and the HANDLE that follows in Idle only clears it
(70_reset_and_hazards.md R237). -/
def Obligations.RequestSurvivesReset : Prop :=
  ∀ s t u : State, exec .reset s = .next t → exec .handle t = .next u →
    t.hreq = s.hreq ∧ u = { t with hreq := false }

/-- Tier 2. ARM, TRIGGER and then ADVANCE, takes a clean Idle block to Responding with an empty buffer and the last edge
set to TRIGGER's time (30_encoding.md R86, 70_reset_and_hazards.md R233). -/
def Obligations.ArmEntersResponding : Prop :=
  ∀ (s : State) (now : Word) (rest : List Event), s.rst = false → s.state = .idle → s.triggered = false →
    s.error = false → s.events = ScriptOp.arm.expand now ++ rest →
    ∃ t, Host.Core.run core 2 s = .next t ∧ t.state = .responding ∧ t.triggered = true ∧ t.count = 0 ∧
      t.deltas = [] ∧ t.lastEdge = now ∧ t.rej = false ∧ t.hreq = s.hreq ∧ t.events = rest
end

