-- ==== Sys2Proof/Laws/State.lean ====
section
/-! SUPPORT. Every field after every update of State: one lemma each, by rfl, so that no later proof unfolds an update. -/

namespace Sys2Proof.Machine

section

variable (s : State) (now : Word) (e : Event) (rest : List Event)

@[simp] theorem accept_cfg : (accept s).cfg = s.cfg := rfl
@[simp] theorem accept_state : (accept s).state = s.state := rfl
@[simp] theorem accept_triggered : (accept s).triggered = s.triggered := rfl
@[simp] theorem accept_finished : (accept s).finished = s.finished := rfl
@[simp] theorem accept_error : (accept s).error = s.error := rfl
@[simp] theorem accept_hreq : (accept s).hreq = s.hreq := rfl
@[simp] theorem accept_count : (accept s).count = s.count := rfl
@[simp] theorem accept_deltas : (accept s).deltas = s.deltas := rfl
@[simp] theorem accept_lastEdge : (accept s).lastEdge = s.lastEdge := rfl
@[simp] theorem accept_bytes : (accept s).bytes = s.bytes := rfl
@[simp] theorem accept_temp : (accept s).temp = s.temp := rfl
@[simp] theorem accept_hum : (accept s).hum = s.hum := rfl
@[simp] theorem accept_valid : (accept s).valid = s.valid := rfl
@[simp] theorem accept_dok : (accept s).dok = s.dok := rfl
@[simp] theorem accept_dcerr : (accept s).dcerr = s.dcerr := rfl
@[simp] theorem accept_rej : (accept s).rej = false := rfl
@[simp] theorem accept_rst : (accept s).rst = s.rst := rfl
@[simp] theorem accept_timeUs : (accept s).timeUs = s.timeUs := rfl
@[simp] theorem accept_events : (accept s).events = s.events := rfl
@[simp] theorem accept_busData : (accept s).busData = s.busData := rfl

@[simp] theorem reject_cfg : (reject s).cfg = s.cfg := rfl
@[simp] theorem reject_state : (reject s).state = s.state := rfl
@[simp] theorem reject_triggered : (reject s).triggered = s.triggered := rfl
@[simp] theorem reject_finished : (reject s).finished = s.finished := rfl
@[simp] theorem reject_error : (reject s).error = s.error := rfl
@[simp] theorem reject_hreq : (reject s).hreq = s.hreq := rfl
@[simp] theorem reject_count : (reject s).count = s.count := rfl
@[simp] theorem reject_deltas : (reject s).deltas = s.deltas := rfl
@[simp] theorem reject_lastEdge : (reject s).lastEdge = s.lastEdge := rfl
@[simp] theorem reject_bytes : (reject s).bytes = s.bytes := rfl
@[simp] theorem reject_temp : (reject s).temp = s.temp := rfl
@[simp] theorem reject_hum : (reject s).hum = s.hum := rfl
@[simp] theorem reject_valid : (reject s).valid = s.valid := rfl
@[simp] theorem reject_dok : (reject s).dok = s.dok := rfl
@[simp] theorem reject_dcerr : (reject s).dcerr = s.dcerr := rfl
@[simp] theorem reject_rej : (reject s).rej = true := rfl
@[simp] theorem reject_rst : (reject s).rst = s.rst := rfl
@[simp] theorem reject_timeUs : (reject s).timeUs = s.timeUs := rfl
@[simp] theorem reject_events : (reject s).events = s.events := rfl
@[simp] theorem reject_busData : (reject s).busData = s.busData := rfl

@[simp] theorem requestHandling_cfg : (requestHandling s).cfg = s.cfg := rfl
@[simp] theorem requestHandling_state : (requestHandling s).state = s.state := rfl
@[simp] theorem requestHandling_triggered : (requestHandling s).triggered = s.triggered := rfl
@[simp] theorem requestHandling_finished : (requestHandling s).finished = s.finished := rfl
@[simp] theorem requestHandling_error : (requestHandling s).error = s.error := rfl
@[simp] theorem requestHandling_hreq : (requestHandling s).hreq = true := rfl
@[simp] theorem requestHandling_count : (requestHandling s).count = s.count := rfl
@[simp] theorem requestHandling_deltas : (requestHandling s).deltas = s.deltas := rfl
@[simp] theorem requestHandling_lastEdge : (requestHandling s).lastEdge = s.lastEdge := rfl
@[simp] theorem requestHandling_bytes : (requestHandling s).bytes = s.bytes := rfl
@[simp] theorem requestHandling_temp : (requestHandling s).temp = s.temp := rfl
@[simp] theorem requestHandling_hum : (requestHandling s).hum = s.hum := rfl
@[simp] theorem requestHandling_valid : (requestHandling s).valid = s.valid := rfl
@[simp] theorem requestHandling_dok : (requestHandling s).dok = s.dok := rfl
@[simp] theorem requestHandling_dcerr : (requestHandling s).dcerr = s.dcerr := rfl
@[simp] theorem requestHandling_rej : (requestHandling s).rej = s.rej := rfl
@[simp] theorem requestHandling_rst : (requestHandling s).rst = s.rst := rfl
@[simp] theorem requestHandling_timeUs : (requestHandling s).timeUs = s.timeUs := rfl
@[simp] theorem requestHandling_events : (requestHandling s).events = s.events := rfl
@[simp] theorem requestHandling_busData : (requestHandling s).busData = s.busData := rfl

@[simp] theorem markError_cfg : (markError s).cfg = s.cfg := rfl
@[simp] theorem markError_state : (markError s).state = s.state := rfl
@[simp] theorem markError_triggered : (markError s).triggered = s.triggered := rfl
@[simp] theorem markError_finished : (markError s).finished = s.finished := rfl
@[simp] theorem markError_error : (markError s).error = true := rfl
@[simp] theorem markError_hreq : (markError s).hreq = s.hreq := rfl
@[simp] theorem markError_count : (markError s).count = s.count := rfl
@[simp] theorem markError_deltas : (markError s).deltas = s.deltas := rfl
@[simp] theorem markError_lastEdge : (markError s).lastEdge = s.lastEdge := rfl
@[simp] theorem markError_bytes : (markError s).bytes = s.bytes := rfl
@[simp] theorem markError_temp : (markError s).temp = s.temp := rfl
@[simp] theorem markError_hum : (markError s).hum = s.hum := rfl
@[simp] theorem markError_valid : (markError s).valid = s.valid := rfl
@[simp] theorem markError_dok : (markError s).dok = s.dok := rfl
@[simp] theorem markError_dcerr : (markError s).dcerr = s.dcerr := rfl
@[simp] theorem markError_rej : (markError s).rej = s.rej := rfl
@[simp] theorem markError_rst : (markError s).rst = s.rst := rfl
@[simp] theorem markError_timeUs : (markError s).timeUs = s.timeUs := rfl
@[simp] theorem markError_events : (markError s).events = s.events := rfl
@[simp] theorem markError_busData : (markError s).busData = s.busData := rfl

@[simp] theorem markFinished_cfg : (markFinished s).cfg = s.cfg := rfl
@[simp] theorem markFinished_state : (markFinished s).state = s.state := rfl
@[simp] theorem markFinished_triggered : (markFinished s).triggered = s.triggered := rfl
@[simp] theorem markFinished_finished : (markFinished s).finished = true := rfl
@[simp] theorem markFinished_error : (markFinished s).error = s.error := rfl
@[simp] theorem markFinished_hreq : (markFinished s).hreq = s.hreq := rfl
@[simp] theorem markFinished_count : (markFinished s).count = s.count := rfl
@[simp] theorem markFinished_deltas : (markFinished s).deltas = s.deltas := rfl
@[simp] theorem markFinished_lastEdge : (markFinished s).lastEdge = s.lastEdge := rfl
@[simp] theorem markFinished_bytes : (markFinished s).bytes = s.bytes := rfl
@[simp] theorem markFinished_temp : (markFinished s).temp = s.temp := rfl
@[simp] theorem markFinished_hum : (markFinished s).hum = s.hum := rfl
@[simp] theorem markFinished_valid : (markFinished s).valid = s.valid := rfl
@[simp] theorem markFinished_dok : (markFinished s).dok = s.dok := rfl
@[simp] theorem markFinished_dcerr : (markFinished s).dcerr = s.dcerr := rfl
@[simp] theorem markFinished_rej : (markFinished s).rej = s.rej := rfl
@[simp] theorem markFinished_rst : (markFinished s).rst = s.rst := rfl
@[simp] theorem markFinished_timeUs : (markFinished s).timeUs = s.timeUs := rfl
@[simp] theorem markFinished_events : (markFinished s).events = s.events := rfl
@[simp] theorem markFinished_busData : (markFinished s).busData = s.busData := rfl

@[simp] theorem raiseUnexpectedEdge_cfg : (raiseUnexpectedEdge s).cfg = s.cfg := rfl
@[simp] theorem raiseUnexpectedEdge_state : (raiseUnexpectedEdge s).state = s.state := rfl
@[simp] theorem raiseUnexpectedEdge_triggered : (raiseUnexpectedEdge s).triggered = s.triggered := rfl
@[simp] theorem raiseUnexpectedEdge_finished : (raiseUnexpectedEdge s).finished = s.finished := rfl
@[simp] theorem raiseUnexpectedEdge_error : (raiseUnexpectedEdge s).error = true := rfl
@[simp] theorem raiseUnexpectedEdge_hreq : (raiseUnexpectedEdge s).hreq = true := rfl
@[simp] theorem raiseUnexpectedEdge_count : (raiseUnexpectedEdge s).count = s.count := rfl
@[simp] theorem raiseUnexpectedEdge_deltas : (raiseUnexpectedEdge s).deltas = s.deltas := rfl
@[simp] theorem raiseUnexpectedEdge_lastEdge : (raiseUnexpectedEdge s).lastEdge = s.lastEdge := rfl
@[simp] theorem raiseUnexpectedEdge_bytes : (raiseUnexpectedEdge s).bytes = s.bytes := rfl
@[simp] theorem raiseUnexpectedEdge_temp : (raiseUnexpectedEdge s).temp = s.temp := rfl
@[simp] theorem raiseUnexpectedEdge_hum : (raiseUnexpectedEdge s).hum = s.hum := rfl
@[simp] theorem raiseUnexpectedEdge_valid : (raiseUnexpectedEdge s).valid = s.valid := rfl
@[simp] theorem raiseUnexpectedEdge_dok : (raiseUnexpectedEdge s).dok = s.dok := rfl
@[simp] theorem raiseUnexpectedEdge_dcerr : (raiseUnexpectedEdge s).dcerr = s.dcerr := rfl
@[simp] theorem raiseUnexpectedEdge_rej : (raiseUnexpectedEdge s).rej = s.rej := rfl
@[simp] theorem raiseUnexpectedEdge_rst : (raiseUnexpectedEdge s).rst = s.rst := rfl
@[simp] theorem raiseUnexpectedEdge_timeUs : (raiseUnexpectedEdge s).timeUs = s.timeUs := rfl
@[simp] theorem raiseUnexpectedEdge_events : (raiseUnexpectedEdge s).events = s.events := rfl
@[simp] theorem raiseUnexpectedEdge_busData : (raiseUnexpectedEdge s).busData = s.busData := rfl

@[simp] theorem raiseCompletion_cfg : (raiseCompletion s).cfg = s.cfg := rfl
@[simp] theorem raiseCompletion_state : (raiseCompletion s).state = s.state := rfl
@[simp] theorem raiseCompletion_triggered : (raiseCompletion s).triggered = s.triggered := rfl
@[simp] theorem raiseCompletion_finished : (raiseCompletion s).finished = true := rfl
@[simp] theorem raiseCompletion_error : (raiseCompletion s).error = s.error := rfl
@[simp] theorem raiseCompletion_hreq : (raiseCompletion s).hreq = true := rfl
@[simp] theorem raiseCompletion_count : (raiseCompletion s).count = s.count := rfl
@[simp] theorem raiseCompletion_deltas : (raiseCompletion s).deltas = s.deltas := rfl
@[simp] theorem raiseCompletion_lastEdge : (raiseCompletion s).lastEdge = s.lastEdge := rfl
@[simp] theorem raiseCompletion_bytes : (raiseCompletion s).bytes = s.bytes := rfl
@[simp] theorem raiseCompletion_temp : (raiseCompletion s).temp = s.temp := rfl
@[simp] theorem raiseCompletion_hum : (raiseCompletion s).hum = s.hum := rfl
@[simp] theorem raiseCompletion_valid : (raiseCompletion s).valid = s.valid := rfl
@[simp] theorem raiseCompletion_dok : (raiseCompletion s).dok = s.dok := rfl
@[simp] theorem raiseCompletion_dcerr : (raiseCompletion s).dcerr = s.dcerr := rfl
@[simp] theorem raiseCompletion_rej : (raiseCompletion s).rej = s.rej := rfl
@[simp] theorem raiseCompletion_rst : (raiseCompletion s).rst = s.rst := rfl
@[simp] theorem raiseCompletion_timeUs : (raiseCompletion s).timeUs = s.timeUs := rfl
@[simp] theorem raiseCompletion_events : (raiseCompletion s).events = s.events := rfl
@[simp] theorem raiseCompletion_busData : (raiseCompletion s).busData = s.busData := rfl

@[simp] theorem emptyBuffer_cfg : (emptyBuffer s).cfg = s.cfg := rfl
@[simp] theorem emptyBuffer_state : (emptyBuffer s).state = s.state := rfl
@[simp] theorem emptyBuffer_triggered : (emptyBuffer s).triggered = s.triggered := rfl
@[simp] theorem emptyBuffer_finished : (emptyBuffer s).finished = s.finished := rfl
@[simp] theorem emptyBuffer_error : (emptyBuffer s).error = s.error := rfl
@[simp] theorem emptyBuffer_hreq : (emptyBuffer s).hreq = s.hreq := rfl
@[simp] theorem emptyBuffer_count : (emptyBuffer s).count = 0 := rfl
@[simp] theorem emptyBuffer_deltas : (emptyBuffer s).deltas = [] := rfl
@[simp] theorem emptyBuffer_lastEdge : (emptyBuffer s).lastEdge = s.lastEdge := rfl
@[simp] theorem emptyBuffer_bytes : (emptyBuffer s).bytes = s.bytes := rfl
@[simp] theorem emptyBuffer_temp : (emptyBuffer s).temp = s.temp := rfl
@[simp] theorem emptyBuffer_hum : (emptyBuffer s).hum = s.hum := rfl
@[simp] theorem emptyBuffer_valid : (emptyBuffer s).valid = s.valid := rfl
@[simp] theorem emptyBuffer_dok : (emptyBuffer s).dok = s.dok := rfl
@[simp] theorem emptyBuffer_dcerr : (emptyBuffer s).dcerr = s.dcerr := rfl
@[simp] theorem emptyBuffer_rej : (emptyBuffer s).rej = s.rej := rfl
@[simp] theorem emptyBuffer_rst : (emptyBuffer s).rst = s.rst := rfl
@[simp] theorem emptyBuffer_timeUs : (emptyBuffer s).timeUs = s.timeUs := rfl
@[simp] theorem emptyBuffer_events : (emptyBuffer s).events = s.events := rfl
@[simp] theorem emptyBuffer_busData : (emptyBuffer s).busData = s.busData := rfl

@[simp] theorem recordDelta_cfg : (recordDelta now s).cfg = s.cfg := rfl
@[simp] theorem recordDelta_state : (recordDelta now s).state = s.state := rfl
@[simp] theorem recordDelta_triggered : (recordDelta now s).triggered = s.triggered := rfl
@[simp] theorem recordDelta_finished : (recordDelta now s).finished = s.finished := rfl
@[simp] theorem recordDelta_error : (recordDelta now s).error = s.error := rfl
@[simp] theorem recordDelta_hreq : (recordDelta now s).hreq = s.hreq := rfl
@[simp] theorem recordDelta_count : (recordDelta now s).count = s.count + 1 := rfl
@[simp] theorem recordDelta_deltas : (recordDelta now s).deltas = putDelta s.deltas s.count.toNat (now - s.lastEdge) := rfl
@[simp] theorem recordDelta_lastEdge : (recordDelta now s).lastEdge = s.lastEdge := rfl
@[simp] theorem recordDelta_bytes : (recordDelta now s).bytes = s.bytes := rfl
@[simp] theorem recordDelta_temp : (recordDelta now s).temp = s.temp := rfl
@[simp] theorem recordDelta_hum : (recordDelta now s).hum = s.hum := rfl
@[simp] theorem recordDelta_valid : (recordDelta now s).valid = s.valid := rfl
@[simp] theorem recordDelta_dok : (recordDelta now s).dok = s.dok := rfl
@[simp] theorem recordDelta_dcerr : (recordDelta now s).dcerr = s.dcerr := rfl
@[simp] theorem recordDelta_rej : (recordDelta now s).rej = s.rej := rfl
@[simp] theorem recordDelta_rst : (recordDelta now s).rst = s.rst := rfl
@[simp] theorem recordDelta_timeUs : (recordDelta now s).timeUs = s.timeUs := rfl
@[simp] theorem recordDelta_events : (recordDelta now s).events = s.events := rfl
@[simp] theorem recordDelta_busData : (recordDelta now s).busData = s.busData := rfl

@[simp] theorem cleanup_cfg : (cleanup s).cfg = s.cfg := rfl
@[simp] theorem cleanup_state : (cleanup s).state = .idle := rfl
@[simp] theorem cleanup_triggered : (cleanup s).triggered = false := rfl
@[simp] theorem cleanup_finished : (cleanup s).finished = false := rfl
@[simp] theorem cleanup_error : (cleanup s).error = false := rfl
@[simp] theorem cleanup_hreq : (cleanup s).hreq = s.hreq := rfl
@[simp] theorem cleanup_count : (cleanup s).count = 0 := rfl
@[simp] theorem cleanup_deltas : (cleanup s).deltas = [] := rfl
@[simp] theorem cleanup_lastEdge : (cleanup s).lastEdge = s.lastEdge := rfl
@[simp] theorem cleanup_bytes : (cleanup s).bytes = s.bytes := rfl
@[simp] theorem cleanup_temp : (cleanup s).temp = s.temp := rfl
@[simp] theorem cleanup_hum : (cleanup s).hum = s.hum := rfl
@[simp] theorem cleanup_valid : (cleanup s).valid = s.valid := rfl
@[simp] theorem cleanup_dok : (cleanup s).dok = s.dok := rfl
@[simp] theorem cleanup_dcerr : (cleanup s).dcerr = s.dcerr := rfl
@[simp] theorem cleanup_rej : (cleanup s).rej = s.rej := rfl
@[simp] theorem cleanup_rst : (cleanup s).rst = s.rst := rfl
@[simp] theorem cleanup_timeUs : (cleanup s).timeUs = s.timeUs := rfl
@[simp] theorem cleanup_events : (cleanup s).events = s.events := rfl
@[simp] theorem cleanup_busData : (cleanup s).busData = s.busData := rfl

@[simp] theorem startCycle_cfg : (startCycle now s).cfg = s.cfg := rfl
@[simp] theorem startCycle_state : (startCycle now s).state = s.state := rfl
@[simp] theorem startCycle_triggered : (startCycle now s).triggered = true := rfl
@[simp] theorem startCycle_finished : (startCycle now s).finished = s.finished := rfl
@[simp] theorem startCycle_error : (startCycle now s).error = s.error := rfl
@[simp] theorem startCycle_hreq : (startCycle now s).hreq = s.hreq := rfl
@[simp] theorem startCycle_count : (startCycle now s).count = 0 := rfl
@[simp] theorem startCycle_deltas : (startCycle now s).deltas = [] := rfl
@[simp] theorem startCycle_lastEdge : (startCycle now s).lastEdge = now := rfl
@[simp] theorem startCycle_bytes : (startCycle now s).bytes = #v[0, 0, 0, 0, 0] := rfl
@[simp] theorem startCycle_temp : (startCycle now s).temp = s.temp := rfl
@[simp] theorem startCycle_hum : (startCycle now s).hum = s.hum := rfl
@[simp] theorem startCycle_valid : (startCycle now s).valid = s.valid := rfl
@[simp] theorem startCycle_dok : (startCycle now s).dok = false := rfl
@[simp] theorem startCycle_dcerr : (startCycle now s).dcerr = false := rfl
@[simp] theorem startCycle_rej : (startCycle now s).rej = s.rej := rfl
@[simp] theorem startCycle_rst : (startCycle now s).rst = s.rst := rfl
@[simp] theorem startCycle_timeUs : (startCycle now s).timeUs = s.timeUs := rfl
@[simp] theorem startCycle_events : (startCycle now s).events = s.events := rfl
@[simp] theorem startCycle_busData : (startCycle now s).busData = s.busData := rfl

@[simp] theorem advancePsm_cfg : (advancePsm s).cfg = s.cfg := rfl
@[simp] theorem advancePsm_state : (advancePsm s).state = s.nextState := rfl
@[simp] theorem advancePsm_triggered : (advancePsm s).triggered = s.triggered := rfl
@[simp] theorem advancePsm_finished : (advancePsm s).finished = s.finished := rfl
@[simp] theorem advancePsm_error : (advancePsm s).error = s.error := rfl
@[simp] theorem advancePsm_hreq : (advancePsm s).hreq = s.hreq := rfl
@[simp] theorem advancePsm_count : (advancePsm s).count = s.count := rfl
@[simp] theorem advancePsm_deltas : (advancePsm s).deltas = s.deltas := rfl
@[simp] theorem advancePsm_lastEdge : (advancePsm s).lastEdge = s.lastEdge := rfl
@[simp] theorem advancePsm_bytes : (advancePsm s).bytes = s.bytes := rfl
@[simp] theorem advancePsm_temp : (advancePsm s).temp = s.temp := rfl
@[simp] theorem advancePsm_hum : (advancePsm s).hum = s.hum := rfl
@[simp] theorem advancePsm_valid : (advancePsm s).valid = s.valid := rfl
@[simp] theorem advancePsm_dok : (advancePsm s).dok = s.dok := rfl
@[simp] theorem advancePsm_dcerr : (advancePsm s).dcerr = s.dcerr := rfl
@[simp] theorem advancePsm_rej : (advancePsm s).rej = s.rej := rfl
@[simp] theorem advancePsm_rst : (advancePsm s).rst = s.rst := rfl
@[simp] theorem advancePsm_timeUs : (advancePsm s).timeUs = s.timeUs := rfl
@[simp] theorem advancePsm_events : (advancePsm s).events = s.events := rfl
@[simp] theorem advancePsm_busData : (advancePsm s).busData = s.busData := rfl

@[simp] theorem storeReading_cfg : (storeReading s).cfg = s.cfg := rfl
@[simp] theorem storeReading_state : (storeReading s).state = s.state := rfl
@[simp] theorem storeReading_triggered : (storeReading s).triggered = s.triggered := rfl
@[simp] theorem storeReading_finished : (storeReading s).finished = s.finished := rfl
@[simp] theorem storeReading_error : (storeReading s).error = s.error := rfl
@[simp] theorem storeReading_hreq : (storeReading s).hreq = s.hreq := rfl
@[simp] theorem storeReading_count : (storeReading s).count = s.count := rfl
@[simp] theorem storeReading_deltas : (storeReading s).deltas = s.deltas := rfl
@[simp] theorem storeReading_lastEdge : (storeReading s).lastEdge = s.lastEdge := rfl
@[simp] theorem storeReading_bytes : (storeReading s).bytes = s.bytes := rfl
@[simp] theorem storeReading_temp : (storeReading s).temp = temperature s.bytes := rfl
@[simp] theorem storeReading_hum : (storeReading s).hum = humidity s.bytes := rfl
@[simp] theorem storeReading_valid : (storeReading s).valid = true := rfl
@[simp] theorem storeReading_dok : (storeReading s).dok = true := rfl
@[simp] theorem storeReading_dcerr : (storeReading s).dcerr = false := rfl
@[simp] theorem storeReading_rej : (storeReading s).rej = s.rej := rfl
@[simp] theorem storeReading_rst : (storeReading s).rst = s.rst := rfl
@[simp] theorem storeReading_timeUs : (storeReading s).timeUs = s.timeUs := rfl
@[simp] theorem storeReading_events : (storeReading s).events = s.events := rfl
@[simp] theorem storeReading_busData : (storeReading s).busData = s.busData := rfl

@[simp] theorem raiseChecksum_cfg : (raiseChecksum s).cfg = s.cfg := rfl
@[simp] theorem raiseChecksum_state : (raiseChecksum s).state = s.state := rfl
@[simp] theorem raiseChecksum_triggered : (raiseChecksum s).triggered = s.triggered := rfl
@[simp] theorem raiseChecksum_finished : (raiseChecksum s).finished = s.finished := rfl
@[simp] theorem raiseChecksum_error : (raiseChecksum s).error = s.error := rfl
@[simp] theorem raiseChecksum_hreq : (raiseChecksum s).hreq = s.hreq := rfl
@[simp] theorem raiseChecksum_count : (raiseChecksum s).count = s.count := rfl
@[simp] theorem raiseChecksum_deltas : (raiseChecksum s).deltas = s.deltas := rfl
@[simp] theorem raiseChecksum_lastEdge : (raiseChecksum s).lastEdge = s.lastEdge := rfl
@[simp] theorem raiseChecksum_bytes : (raiseChecksum s).bytes = s.bytes := rfl
@[simp] theorem raiseChecksum_temp : (raiseChecksum s).temp = s.temp := rfl
@[simp] theorem raiseChecksum_hum : (raiseChecksum s).hum = s.hum := rfl
@[simp] theorem raiseChecksum_valid : (raiseChecksum s).valid = s.valid := rfl
@[simp] theorem raiseChecksum_dok : (raiseChecksum s).dok = false := rfl
@[simp] theorem raiseChecksum_dcerr : (raiseChecksum s).dcerr = true := rfl
@[simp] theorem raiseChecksum_rej : (raiseChecksum s).rej = s.rej := rfl
@[simp] theorem raiseChecksum_rst : (raiseChecksum s).rst = s.rst := rfl
@[simp] theorem raiseChecksum_timeUs : (raiseChecksum s).timeUs = s.timeUs := rfl
@[simp] theorem raiseChecksum_events : (raiseChecksum s).events = s.events := rfl
@[simp] theorem raiseChecksum_busData : (raiseChecksum s).busData = s.busData := rfl

@[simp] theorem assertRst_cfg : (assertRst s).cfg = s.cfg := rfl
@[simp] theorem assertRst_state : (assertRst s).state = s.state := rfl
@[simp] theorem assertRst_triggered : (assertRst s).triggered = s.triggered := rfl
@[simp] theorem assertRst_finished : (assertRst s).finished = s.finished := rfl
@[simp] theorem assertRst_error : (assertRst s).error = s.error := rfl
@[simp] theorem assertRst_hreq : (assertRst s).hreq = s.hreq := rfl
@[simp] theorem assertRst_count : (assertRst s).count = s.count := rfl
@[simp] theorem assertRst_deltas : (assertRst s).deltas = s.deltas := rfl
@[simp] theorem assertRst_lastEdge : (assertRst s).lastEdge = s.lastEdge := rfl
@[simp] theorem assertRst_bytes : (assertRst s).bytes = s.bytes := rfl
@[simp] theorem assertRst_temp : (assertRst s).temp = s.temp := rfl
@[simp] theorem assertRst_hum : (assertRst s).hum = s.hum := rfl
@[simp] theorem assertRst_valid : (assertRst s).valid = s.valid := rfl
@[simp] theorem assertRst_dok : (assertRst s).dok = s.dok := rfl
@[simp] theorem assertRst_dcerr : (assertRst s).dcerr = s.dcerr := rfl
@[simp] theorem assertRst_rej : (assertRst s).rej = s.rej := rfl
@[simp] theorem assertRst_rst : (assertRst s).rst = true := rfl
@[simp] theorem assertRst_timeUs : (assertRst s).timeUs = s.timeUs := rfl
@[simp] theorem assertRst_events : (assertRst s).events = s.events := rfl
@[simp] theorem assertRst_busData : (assertRst s).busData = s.busData := rfl

@[simp] theorem hwReset_cfg : (hwReset s).cfg = s.cfg := rfl
@[simp] theorem hwReset_state : (hwReset s).state = .idle := rfl
@[simp] theorem hwReset_triggered : (hwReset s).triggered = false := rfl
@[simp] theorem hwReset_finished : (hwReset s).finished = false := rfl
@[simp] theorem hwReset_error : (hwReset s).error = false := rfl
@[simp] theorem hwReset_hreq : (hwReset s).hreq = false := rfl
@[simp] theorem hwReset_count : (hwReset s).count = 0 := rfl
@[simp] theorem hwReset_deltas : (hwReset s).deltas = [] := rfl
@[simp] theorem hwReset_lastEdge : (hwReset s).lastEdge = 0 := rfl
@[simp] theorem hwReset_bytes : (hwReset s).bytes = #v[0, 0, 0, 0, 0] := rfl
@[simp] theorem hwReset_temp : (hwReset s).temp = 0 := rfl
@[simp] theorem hwReset_hum : (hwReset s).hum = 0 := rfl
@[simp] theorem hwReset_valid : (hwReset s).valid = false := rfl
@[simp] theorem hwReset_dok : (hwReset s).dok = false := rfl
@[simp] theorem hwReset_dcerr : (hwReset s).dcerr = false := rfl
@[simp] theorem hwReset_rej : (hwReset s).rej = false := rfl
@[simp] theorem hwReset_rst : (hwReset s).rst = false := rfl
@[simp] theorem hwReset_timeUs : (hwReset s).timeUs = s.timeUs := rfl
@[simp] theorem hwReset_events : (hwReset s).events = s.events := rfl
@[simp] theorem hwReset_busData : (hwReset s).busData = none := rfl

@[simp] theorem takeEvent_cfg : (takeEvent e rest s).cfg = s.cfg := rfl
@[simp] theorem takeEvent_state : (takeEvent e rest s).state = s.state := rfl
@[simp] theorem takeEvent_triggered : (takeEvent e rest s).triggered = s.triggered := rfl
@[simp] theorem takeEvent_finished : (takeEvent e rest s).finished = s.finished := rfl
@[simp] theorem takeEvent_error : (takeEvent e rest s).error = s.error := rfl
@[simp] theorem takeEvent_hreq : (takeEvent e rest s).hreq = s.hreq := rfl
@[simp] theorem takeEvent_count : (takeEvent e rest s).count = s.count := rfl
@[simp] theorem takeEvent_deltas : (takeEvent e rest s).deltas = s.deltas := rfl
@[simp] theorem takeEvent_lastEdge : (takeEvent e rest s).lastEdge = s.lastEdge := rfl
@[simp] theorem takeEvent_bytes : (takeEvent e rest s).bytes = s.bytes := rfl
@[simp] theorem takeEvent_temp : (takeEvent e rest s).temp = s.temp := rfl
@[simp] theorem takeEvent_hum : (takeEvent e rest s).hum = s.hum := rfl
@[simp] theorem takeEvent_valid : (takeEvent e rest s).valid = s.valid := rfl
@[simp] theorem takeEvent_dok : (takeEvent e rest s).dok = s.dok := rfl
@[simp] theorem takeEvent_dcerr : (takeEvent e rest s).dcerr = s.dcerr := rfl
@[simp] theorem takeEvent_rej : (takeEvent e rest s).rej = s.rej := rfl
@[simp] theorem takeEvent_rst : (takeEvent e rest s).rst = s.rst := rfl
@[simp] theorem takeEvent_timeUs : (takeEvent e rest s).timeUs = e.time := rfl
@[simp] theorem takeEvent_events : (takeEvent e rest s).events = rest := rfl
@[simp] theorem takeEvent_busData : (takeEvent e rest s).busData = none := rfl

end

end Sys2Proof.Machine
end

