-- ==== Sys2Proof/Laws/Buffer.lean ====
section
/-! SUPPORT. The delta buffer: reads after a write, and the canonical form that every operation keeps (10_state.md R26). -/

namespace Sys2Proof.Machine

/-- At the end of the entries, writing appends. -/
theorem putDelta_length_eq (ds : List Word) (d : Word) : putDelta ds ds.length d = ds ++ [d] := by
  simp [putDelta]

/-- After a write at `i` the buffer has `i + 1` entries. -/
theorem length_putDelta (ds : List Word) (i : Nat) (d : Word) : (putDelta ds i d).length = i + 1 := by
  simp only [putDelta, List.length_append, List.length_take, List.length_replicate, List.length_singleton]
  omega

/-- The entry that was written. -/
theorem readDelta_putDelta_self (ds : List Word) (i : Nat) (d : Word) : readDelta (putDelta ds i d) i = d := by
  have h : (ds.take i ++ List.replicate (i - ds.length) (0 : Word)).length = i := by
    simp only [List.length_append, List.length_take, List.length_replicate]
    omega
  rw [readDelta, putDelta, List.getD_eq_getElem?_getD, List.getElem?_append_right (le_of_eq h), h]
  simp

/-- An entry below the one that was written. -/
theorem readDelta_putDelta_lt (ds : List Word) {i j : Nat} (d : Word) (hj : j < i) :
    readDelta (putDelta ds i d) j = readDelta ds j := by
  simp only [readDelta, putDelta, List.getD_eq_getElem?_getD]
  rw [List.getElem?_append_left (by simp; omega)]
  by_cases h : j < ds.length
  · rw [List.getElem?_append_left (by simp; omega), List.getElem?_take_of_lt hj]
  · rw [List.getElem?_append_right (by simp; omega), List.getElem?_replicate]
    simp only [List.length_take]
    rw [if_pos (by omega), List.getElem?_eq_none (by omega)]
    rfl

/-- The canonical form as an equation. -/
theorem bufferWf_iff (s : State) : bufferWf s = true ↔ s.deltas.length = s.count.toNat := by
  simp [bufferWf]

/-- Emptying the buffer gives the canonical form. -/
theorem bufferWf_emptyBuffer (s : State) : bufferWf (emptyBuffer s) = true := rfl

/-- Cleanup gives it. -/
theorem bufferWf_cleanup (s : State) : bufferWf (cleanup s) = true := rfl

/-- Starting a cycle gives it. -/
theorem bufferWf_startCycle (now : Word) (s : State) : bufferWf (startCycle now s) = true := rfl

/-- The capacity is at most 256 (00_scope.md R5). -/
theorem capacity_le (c : Config) : capacity c ≤ 256 := by
  have := c.preamble.isLt
  simp only [capacity, preambleCount, dataCount]
  omega

/-- The capacity is at least 80 (00_scope.md R5). -/
theorem le_capacity (c : Config) : 80 ≤ capacity c := by
  simp only [capacity, dataCount]
  omega

/-- Below the capacity the 16-bit count does not wrap. -/
theorem count_succ_toNat (s : State) (h : s.count.toNat < capacity s.cfg) :
    (s.count + 1).toNat = s.count.toNat + 1 := by
  have := capacity_le s.cfg
  rw [BitVec.toNat_add]
  simp
  omega

/-- Recording a delta below the capacity gives the canonical form. -/
theorem bufferWf_recordDelta (now : Word) (s : State) (h : s.count.toNat < capacity s.cfg) :
    bufferWf (recordDelta now s) = true := by
  rw [bufferWf_iff, recordDelta_deltas, recordDelta_count, length_putDelta, count_succ_toNat s h]

end Sys2Proof.Machine
end

