-- ==== Sys2Proof/Laws/Decode.lean ====
section
/-! SUPPORT. When a row of the command table matches a word. -/

namespace Sys2Proof

/-- A row that fixes every bit matches its pattern only. -/
theorem matches_all (v p : Word) (f : Word → Instr) :
    CommandRow.matches ⟨0xFFFFFFFF#32, p, f⟩ v = true ↔ v = p := by
  have : v &&& 0xFFFFFFFF#32 = v := BitVec.and_allOnes
  simp [CommandRow.matches, this]

/-- The mask of the last row clears the low three bits. -/
theorem and_clear_low (v : Word) : v &&& 0xFFFFFFF8#32 = (v >>> 3) <<< 3 := by
  ext k hk
  interval_cases k <;> simp

/-- The last row matches the words 8 to 15. -/
theorem matches_reserved (v : Word) (f : Word → Instr) :
    CommandRow.matches ⟨0xFFFFFFF8#32, 0x00000008#32, f⟩ v = true ↔ 8 ≤ v.toNat ∧ v.toNat < 16 := by
  have hv := v.isLt
  simp only [CommandRow.matches, and_clear_low, beq_iff_eq, ← BitVec.toNat_inj, BitVec.toNat_shiftLeft,
    BitVec.toNat_ushiftRight, Nat.shiftLeft_eq, Nat.shiftRight_eq_div_pow]
  simp
  omega

/-- The reserved opcode's low bits come back. -/
theorem decodeCommand_reserved (low : BitVec 3) :
    decodeCommand (0b00000000000000000000000000001#29 ++ low) = some (.reservedOp8F low) := by
  revert low
  decide

end Sys2Proof
end

