-- ==== Sys2Proof/Laws/Ops.lean ====
section
/-! SUPPORT. What each shared operation that branches can do, said once. -/

namespace Sys2Proof.Machine

theorem expectsEdge_iff (s : State) :
    s.expectsEdge = true ↔ s.triggered = true ∧ s.count.toNat < capacity s.cfg := by
  simp [State.expectsEdge]

/-- The three things an edge can do, and when (40_edge_capture.md R100). -/
theorem captureEdge_cases (now : Word) (s : State) :
    (s.triggered = true ∧ s.count.toNat + 1 < capacity s.cfg ∧ captureEdge now s = recordDelta now s) ∨
      (s.triggered = true ∧ s.count.toNat + 1 = capacity s.cfg ∧
        captureEdge now s = raiseCompletion (recordDelta now s)) ∨
      ((s.triggered = false ∨ capacity s.cfg ≤ s.count.toNat) ∧ captureEdge now s = raiseUnexpectedEdge s) := by
  unfold captureEdge
  by_cases h : s.expectsEdge = true
  · obtain ⟨ht, hc⟩ := (expectsEdge_iff s).mp h
    have hs := count_succ_toNat s hc
    simp only [h, if_true, recordDelta_count, hs]
    by_cases hN : s.count.toNat + 1 = capacity s.cfg
    · exact .inr (.inl ⟨ht, hN, if_pos hN⟩)
    · exact .inl ⟨ht, by omega, if_neg hN⟩
  · refine .inr (.inr ⟨?_, if_neg h⟩)
    by_cases ht : s.triggered = true
    · exact .inr (by simpa [expectsEdge_iff, ht] using h)
    · exact .inl (by simpa using ht)

/-- The two outcomes of `decode_body()` (42_decoder.md R160), each followed by cleanup. -/
theorem decodeBody_cases (s : State) :
    (checksumOk (decodeBytes s.cfg s.deltas) = true ∧
        decodeBody s = cleanup (storeReading { s with bytes := decodeBytes s.cfg s.deltas })) ∨
      (checksumOk (decodeBytes s.cfg s.deltas) = false ∧
        decodeBody s = cleanup (raiseChecksum { s with bytes := decodeBytes s.cfg s.deltas })) := by
  by_cases h : checksumOk (decodeBytes s.cfg s.deltas) = true
  · exact .inl ⟨h, by simp [decodeBody, h]⟩
  · exact .inr ⟨by simpa using h, by simp [decodeBody, h]⟩

/-- `aligned32` as the rule says it (20_memory.md R51). -/
theorem aligned32_iff (addr : Offset) (bytes : Nat) :
    aligned32 addr bytes = true ↔ bytes = 4 ∧ addr.toNat % 4 = 0 := by
  simp [aligned32]

/-- The decoder and the meanings agree on which accesses get a bus error. -/
theorem wordAccess_eq_aligned32 (addr : Offset) (bytes : Nat) : wordAccess addr bytes = aligned32 addr bytes := by
  rw [Bool.eq_iff_iff, aligned32_iff]
  simp only [wordAccess, Bool.and_eq_true, beq_iff_eq, ← BitVec.toNat_inj, BitVec.extractLsb'_toNat]
  simp

/-- What the PSM can move to (41_psm.md R120). -/
theorem nextPsm_cases (prio : Prio) (p : PsmState) (t f e : Bool) :
    nextPsm prio p t f e = p ∨ (p = .idle ∧ e = true ∧ nextPsm prio p t f e = .error) ∨
      (p = .idle ∧ e = false ∧ t = true ∧ nextPsm prio p t f e = .responding) ∨
      (p = .responding ∧ f = true ∧ nextPsm prio p t f e = .finished) ∨
      (p = .responding ∧ e = true ∧ nextPsm prio p t f e = .error) := by
  cases prio <;> cases p <;> cases t <;> cases f <;> cases e <;> simp [nextPsm]

end Sys2Proof.Machine
end

