-- ==== Sys2Proof/Laws/Exec.lean ====
section
/-! SUPPORT. Everything an instruction can do, said once: the later proofs split on `Effect` and never unfold `exec`. -/

namespace Sys2Proof.Machine

/-- `i` is the command `c`, or the bus write of its word `w` to CMD. -/
def Issues (c : Instr) (w : Word) (i : Instr) : Prop := i = c ∨ i = .busWrite cmdOffset 4 w

/-- What executing `i` in `s` can lead to. -/
inductive Effect (i : Instr) (s : State) : State → Prop where
  | nop (h : Issues .nop 0#32 i) : Effect i s (accept s)
  | startCycle (h : Issues .trigger 1#32 i) (hi : s.state = .idle) (ht : s.triggered = false) :
    Effect i s (startCycle s.timeUs (accept s))
  | triggerBusy (h : Issues .trigger 1#32 i) (hb : s.state ≠ .idle ∨ s.triggered = true) : Effect i s (accept s)
  | advance (h : Issues .advance 2#32 i) : Effect i s (advancePsm (accept s))
  | forceError (h : Issues .forceError 3#32 i) : Effect i s (markError (accept s))
  | reset (h : Issues .reset 4#32 i) : Effect i s (cleanup (accept s))
  | decode (h : Issues .decode 5#32 i) (hf : s.state = .finished) : Effect i s (decodeBody (accept s))
  | decodeRejected (h : Issues .decode 5#32 i) (hf : s.state ≠ .finished) : Effect i s (reject s)
  | handleFinished (h : Issues .handle 6#32 i) (hf : s.nextState = .finished) :
    Effect i s (decodeBody (advancePsm { accept s with hreq := false }))
  | handleError (h : Issues .handle 6#32 i) (hf : s.nextState = .error) :
    Effect i s (cleanup (advancePsm { accept s with hreq := false }))
  | handleNothing (h : Issues .handle 6#32 i) (hf : s.nextState = .idle ∨ s.nextState = .responding) :
    Effect i s (advancePsm { accept s with hreq := false })
  | rejected (h : i = .reservedOp7 ∨ (∃ low, i = .reservedOp8F low) ∨
      ∃ v, i = .busWrite cmdOffset 4 v ∧ (cmdRsvd v ≠ 0 ∨ 7 ≤ (cmdOp v).toNat)) : Effect i s (reject s)
  | edge (n : Word) (h : i = .edge n) : Effect i s { captureEdge n s with lastEdge := n }
  | read (addr : Offset) (h : i = .busRead addr 4) (ha : addr.toNat % 4 = 0) :
    Effect i s { s with busData := some (readRegister s addr) }
  | writeIgnored (addr : Offset) (v : Word) (h : i = .busWrite addr 4 v) (ha : addr.toNat % 4 = 0)
      (h0 : addr ≠ cmdOffset) : Effect i s s

theorem execTrigger_effect {i : Instr} {s : State} (h : Issues .trigger 1#32 i) :
    ∃ t, execTrigger s = .next t ∧ Effect i s t := by
  refine ⟨_, rfl, ?_⟩
  split
  · next hc => exact .startCycle h hc.1 hc.2
  · next hc =>
    refine .triggerBusy h ?_
    by_cases hs : s.state = .idle
    · exact .inr (by simpa [hs] using hc)
    · exact .inl hs

theorem execDecode_effect {i : Instr} {s : State} (h : Issues .decode 5#32 i) :
    ∃ t, execDecode s = .next t ∧ Effect i s t := by
  refine ⟨_, rfl, ?_⟩
  split
  · next hc => exact .decode h hc
  · next hc => exact .decodeRejected h hc

/-- HANDLE at Finished. -/
theorem execHandle_finished {s : State} (h : s.nextState = .finished) :
    execHandle s = .next (decodeBody (advancePsm { accept s with hreq := false })) := by
  have hn : (advancePsm { accept s with hreq := false }).state = .finished := h
  unfold execHandle
  dsimp only
  rw [hn]

/-- HANDLE at Error. -/
theorem execHandle_error {s : State} (h : s.nextState = .error) :
    execHandle s = .next (cleanup (advancePsm { accept s with hreq := false })) := by
  have hn : (advancePsm { accept s with hreq := false }).state = .error := h
  unfold execHandle
  dsimp only
  rw [hn]

/-- HANDLE elsewhere. -/
theorem execHandle_nothing {s : State} (h : s.nextState = .idle ∨ s.nextState = .responding) :
    execHandle s = .next (advancePsm { accept s with hreq := false }) := by
  have hn : (advancePsm { accept s with hreq := false }).state = s.nextState := rfl
  unfold execHandle
  dsimp only
  rw [hn]
  rcases h with h | h <;> rw [h]

theorem execHandle_effect {i : Instr} {s : State} (h : Issues .handle 6#32 i) :
    ∃ t, execHandle s = .next t ∧ Effect i s t := by
  cases hf : s.nextState with
  | finished => exact ⟨_, execHandle_finished hf, .handleFinished h hf⟩
  | error => exact ⟨_, execHandle_error hf, .handleError h hf⟩
  | idle => exact ⟨_, execHandle_nothing (.inl hf), .handleNothing h (.inl hf)⟩
  | responding => exact ⟨_, execHandle_nothing (.inr hf), .handleNothing h (.inr hf)⟩

/-- A CMD word is its two fields. -/
theorem cmdWord_eq (v : Word) (h : cmdRsvd v = 0) : v = (cmdOp v).setWidth 32 := by
  apply BitVec.eq_of_toNat_eq
  have h' := congrArg BitVec.toNat h
  simp only [cmdRsvd, BitVec.extractLsb'_toNat, Nat.shiftRight_eq_div_pow] at h'
  simp only [cmdOp, BitVec.toNat_setWidth, BitVec.extractLsb'_toNat, Nat.shiftRight_eq_div_pow]
  have := v.isLt
  simp at h'
  omega

/-- What performing a command word can do (30_encoding.md R81). -/
theorem performCommand_effect (v : Word) (s : State) :
    ∃ t, performCommand v s = .next t ∧ Effect (.busWrite cmdOffset 4 v) s t := by
  unfold performCommand
  split
  · next h => exact ⟨_, rfl, .rejected (.inr (.inr ⟨v, rfl, .inl h⟩))⟩
  split
  · next h => exact ⟨_, rfl, .rejected (.inr (.inr ⟨v, rfl, .inr h⟩))⟩
  next hr ho =>
  have hv := cmdWord_eq v (not_not.mp hr)
  generalize hop : cmdOp v = op at *
  obtain ⟨n, hn⟩ := op
  subst hv
  simp only [BitVec.toNat_ofFin] at ho
  have hlt : n < 7 := not_le.mp ho
  split
  · next hd =>
    refine ⟨_, rfl, .decodeRejected (.inr ?_) hd.2⟩
    rw [hd.1]
    rfl
  interval_cases n
  · exact ⟨_, rfl, .nop (.inr rfl)⟩
  · exact execTrigger_effect (.inr rfl)
  · exact ⟨_, rfl, .advance (.inr rfl)⟩
  · exact ⟨_, rfl, .forceError (.inr rfl)⟩
  · exact ⟨_, rfl, .reset (.inr rfl)⟩
  · exact execDecode_effect (.inr rfl)
  · exact execHandle_effect (.inr rfl)

/-- The inversion lemma of `exec`: a next state is one of the effects. -/
theorem exec_effect {i : Instr} {s t : State} (h : exec i s = .next t) : Effect i s t := by
  have of : (∃ t', exec i s = .next t' ∧ Effect i s t') → Effect i s t := by
    rintro ⟨t', h', he⟩
    cases h.symm.trans h'
    exact he
  cases i with
  | nop => exact of ⟨_, rfl, .nop (.inl rfl)⟩
  | trigger => exact of (execTrigger_effect (.inl rfl))
  | advance => exact of ⟨_, rfl, .advance (.inl rfl)⟩
  | forceError => exact of ⟨_, rfl, .forceError (.inl rfl)⟩
  | reset => exact of ⟨_, rfl, .reset (.inl rfl)⟩
  | decode => exact of (execDecode_effect (.inl rfl))
  | handle => exact of (execHandle_effect (.inl rfl))
  | reservedOp7 => exact of ⟨_, rfl, .rejected (.inl rfl)⟩
  | reservedOp8F low => exact of ⟨_, rfl, .rejected (.inr (.inl ⟨low, rfl⟩))⟩
  | edge n => exact of ⟨_, rfl, .edge n rfl⟩
  | busRead addr bytes =>
    simp only [exec, execBusRead] at h
    split at h
    · next ha =>
      obtain ⟨rfl, ha'⟩ := (aligned32_iff _ _).mp ha
      cases h
      exact .read addr rfl ha'
    · cases h
  | busWrite addr bytes v =>
    simp only [exec, execBusWrite] at h
    split at h
    · next ha =>
      obtain ⟨rfl, ha'⟩ := (aligned32_iff _ _).mp ha
      split at h
      · next h0 =>
        subst h0
        obtain ⟨t', h', he⟩ := performCommand_effect v s
        cases h.symm.trans h'
        exact he
      · next h0 =>
        cases h
        exact .writeIgnored addr v rfl ha' h0
    · cases h

end Sys2Proof.Machine
end

