-- ==== Sys2Proof/Laws/PerInstr.lean ====
section
/-! SUPPORT. What is said of every instruction, one lemma a constructor: the event that carries a well-formed instruction
always decodes to an instruction, so no encoder output is a bus error or a reset signal. -/

namespace Sys2Proof.Laws.Carried

/-- The event of a well-formed instruction decodes, at every time. -/
def Statement (i : Instr) : Prop :=
  i.wf = true → ∀ now : Word, (decode (encode now i)).toOption.isSome = true

theorem nop : Statement .nop := fun _ _ => rfl
theorem trigger : Statement .trigger := fun _ _ => rfl
theorem advance : Statement .advance := fun _ _ => rfl
theorem forceError : Statement .forceError := fun _ _ => rfl
theorem reset : Statement .reset := fun _ _ => rfl
theorem decode : Statement .decode := fun _ _ => rfl
theorem handle : Statement .handle := fun _ _ => rfl
theorem reservedOp7 : Statement .reservedOp7 := fun _ _ => rfl
theorem reservedOp8F (low : BitVec 3) : Statement (.reservedOp8F low) := fun _ _ => rfl
theorem edge (t : Word) : Statement (.edge t) := fun _ _ => rfl
theorem busRead (addr : Offset) (bytes : Nat) : Statement (.busRead addr bytes) := by
  intro h now
  simp only [Instr.wf] at h
  simp [encode, Sys2Proof.decode, h, Except.toOption]
theorem busWrite (addr : Offset) (bytes : Nat) (v : Word) : Statement (.busWrite addr bytes v) := by
  intro h now
  simp only [Instr.wf, Bool.and_eq_true] at h
  simp only [encode, Sys2Proof.decode, h.1, if_true]
  split <;> rfl

end Sys2Proof.Laws.Carried
end

