-- ==== Sys2Proof/Laws/Step.lean ====
section
/-! SUPPORT. Everything a step can do, said once, and the induction over a run. -/

namespace Sys2Proof.Machine

/-- The inversion lemma of `step`. -/
theorem step_cases {s t : State} (h : step s = .next t) :
    (s.events = [] ∧ t = s) ∨
      (∃ e rest, s.events = e :: rest ∧ s.rst = true ∧ endsReset e = false ∧
        t = eventUnderRst e (takeEvent e rest s)) ∨
      (∃ now rest, s.events = .hwreset now :: rest ∧ t = hwReset (takeEvent (.hwreset now) rest s)) ∨
      (∃ now rest, s.events = .rstAssert now :: rest ∧ s.rst = false ∧
        t = assertRst (takeEvent (.rstAssert now) rest s)) ∨
      (∃ e rest i, s.events = e :: rest ∧ s.rst = false ∧ decode e = .ok i ∧
        exec i (takeEvent e rest s) = .next t) := by
  unfold step at h
  split at h
  · next h0 => cases h; exact .inl ⟨h0, rfl⟩
  · next e rest h0 =>
    split at h
    · next hr =>
      rw [Bool.and_eq_true, Bool.not_eq_true'] at hr
      cases h
      exact .inr (.inl ⟨e, rest, h0, hr.1, hr.2, rfl⟩)
    · next hr =>
      have hrst : endsReset e = false → s.rst = false := by
        intro he
        simpa [he] using hr
      cases e with
      | hwreset now => cases h; exact .inr (.inr (.inl ⟨now, rest, h0, rfl⟩))
      | rstAssert now => cases h; exact .inr (.inr (.inr (.inl ⟨now, rest, h0, hrst rfl, rfl⟩)))
      | edge n => exact .inr (.inr (.inr (.inr ⟨_, rest, _, h0, hrst rfl, rfl, h⟩)))
      | busRead now addr bytes =>
        generalize hd : decode (.busRead now addr bytes) = d at h
        cases d with
        | ok i => exact .inr (.inr (.inr (.inr ⟨_, rest, _, h0, hrst rfl, hd, h⟩)))
        | error r => simp only [decode] at hd; split at hd <;> cases hd; cases h
      | busWrite now addr bytes v =>
        generalize hd : decode (.busWrite now addr bytes v) = d at h
        cases d with
        | ok i => exact .inr (.inr (.inr (.inr ⟨_, rest, _, h0, hrst rfl, hd, h⟩)))
        | error r =>
          simp only [decode] at hd
          split at hd
          · split at hd <;> cases hd
          · cases hd; cases h

/-- An event under `rst` changes the bus data and nothing else. -/
theorem eventUnderRst_eq (e : Event) (s : State) :
    ∃ d, eventUnderRst e s = { s with busData := d } := by
  cases e <;> exact ⟨_, rfl⟩

/-- No instruction changes the inputs: the build, the events to come, the time, `rst`. -/
theorem Effect.inputs {i : Instr} {s t : State} (h : Effect i s t) :
    t.cfg = s.cfg ∧ t.events = s.events ∧ t.timeUs = s.timeUs ∧ t.rst = s.rst := by
  cases h with
  | decode => rcases decodeBody_cases (accept s) with ⟨_, e⟩ | ⟨_, e⟩ <;> rw [e] <;> simp
  | handleFinished =>
    rcases decodeBody_cases (advancePsm { accept s with hreq := false }) with ⟨_, e⟩ | ⟨_, e⟩ <;> rw [e] <;> simp
  | edge n => rcases captureEdge_cases n s with ⟨_, _, e⟩ | ⟨_, _, e⟩ | ⟨_, e⟩ <;> rw [e] <;> simp
  | _ => simp

/-- A step takes the first event and leaves the rest. -/
theorem step_events {s t : State} (h : step s = .next t) : t.events = s.events.tail := by
  rcases step_cases h with ⟨h0, rfl⟩ | ⟨e, rest, h0, _, _, rfl⟩ | ⟨now, rest, h0, rfl⟩ | ⟨now, rest, h0, _, rfl⟩ |
    ⟨e, rest, i, h0, _, _, hx⟩
  · rw [h0, List.tail_nil]
  · obtain ⟨d, hd⟩ := eventUnderRst_eq e (takeEvent e rest s)
    rw [h0, hd]; rfl
  · rw [h0]; rfl
  · rw [h0]; rfl
  · rw [h0, (exec_effect hx).inputs.2.1]; rfl

/-- The first step of a run. -/
theorem run_succ {k : Nat} {s t : State} (h : step s = .next t) :
    Host.Core.run core (k + 1) s = Host.Core.run core k t := by
  have h' : core.step s = .next t := h
  simp only [Host.Core.run, h']

/-- A run after a run. -/
theorem run_add {j k : Nat} {s t : State} (h : Host.Core.run core j s = .next t) :
    Host.Core.run core (j + k) s = Host.Core.run core k t := by
  induction j generalizing s with
  | zero => cases h; rw [Nat.zero_add]
  | succ j ih =>
    rw [Nat.add_right_comm]
    simp only [Host.Core.run] at h ⊢
    split at h
    · exact ih h
    · cases h
    · cases h

/-- What every step keeps, every run keeps. -/
theorem run_keeps {I : State → Prop} (hstep : ∀ s t, I s → step s = .next t → I t) :
    ∀ k s t, I s → Host.Core.run core k s = .next t → I t := by
  intro k
  induction k with
  | zero => intro s t hs h; cases h; exact hs
  | succ k ih =>
    intro s t hs h
    simp only [Host.Core.run] at h
    split at h
    · next s' h' => exact ih s' t (hstep s s' hs h') h
    · cases h
    · cases h

end Sys2Proof.Machine
end

