-- ==== Sys2Proof/Tests/Slice0.lean ====
section
/-! SUPPORT. Tests of the model: ill-formed terms, words written out from 30_encoding.md and opcode_table.json, the vectors
of 95_test_vectors.md, and for each statement with hypotheses a state and operands that meet them. -/

namespace Sys2Proof.Tests

open Sys2Proof Sys2Proof.Machine

/-! ## Helpers -/

/-- The test configuration of 95_test_vectors.md: P = 5, T = 50, PRIO = FINISHED_FIRST. -/
def testBuild : Config := ⟨5, 50#32, .finishedFirst, 0⟩

/-- Reset state of the test build. -/
def fresh : State := { State.reset with cfg := testBuild }

/-- Responding in a cycle that has recorded `ds`. -/
def capturing (ds : List Word) (last : Word) : State :=
  { fresh with state := .responding, triggered := true, count := BitVec.ofNat 16 ds.length, deltas := ds, lastEdge := last }

/-- The full buffer of the test waveform that carries five bytes. -/
def waveform (bs : Vector Byte 5) : List Word :=
  [100000#32, 1100#32, 30#32, 80#32, 80#32] ++ dataDeltas 50#32 26#32 70#32 bs

/-- Finished with the full buffer of five bytes, before DECODE. -/
def full (bs : Vector Byte 5) : State :=
  { fresh with
    state := .finished, triggered := true, finished := true, count := 85#16, deltas := waveform bs }

/-- A buffer of `n` equal deltas. -/
def flat (n : Nat) : List Word := List.replicate n 26#32

/-- Responding with a full buffer, on a build with PRIO = ERROR_FIRST. -/
def errorFirstFull : State :=
  { full #v[0, 0, 0, 0, 0] with state := .responding, cfg := ⟨5, 50#32, .errorFirst, 0⟩ }

/-- The state after an instruction that completes. -/
def after (i : Instr) (s : State) : Option State :=
  match exec i s with
  | .next t => some t
  | .fault _ => none
  | .refused _ => none

/-- A field of the state after an instruction. -/
def got {α : Type} (i : Instr) (s : State) (field : State → α) : Option α := (after i s).map field

/-- What a read returns. -/
def readAt (addr : Offset) (s : State) : Option (Option Word) := got (.busRead addr 4) s (·.busData)

/-! ## Well-formedness -/

theorem test_wf_refuses_narrow_read : (Instr.busRead 0x004#11 2).wf = false := by decide
theorem test_wf_refuses_misaligned_read : (Instr.busRead 0x002#11 4).wf = false := by decide
theorem test_wf_refuses_narrow_write : (Instr.busWrite 0x004#11 1 0#32).wf = false := by decide
theorem test_wf_refuses_misaligned_write : (Instr.busWrite 0x001#11 4 1#32).wf = false := by decide
theorem test_wf_refuses_second_spelling : (Instr.busWrite 0x000#11 4 0x0000000F#32).wf = false := by decide
theorem test_wf_keeps_rsvd_word : (Instr.busWrite 0x000#11 4 0x00000010#32).wf = true := by decide

/-! ## Decoding: one word a constructor (30_encoding.md, Opcode map) -/

theorem test_decode_nop :
    decodeTableWord 32 0b00000000000000000000000000000000 = some .nop := by decide
theorem test_decode_trigger :
    decodeTableWord 32 0b00000000000000000000000000000001 = some .trigger := by decide
theorem test_decode_advance :
    decodeTableWord 32 0b00000000000000000000000000000010 = some .advance := by decide
theorem test_decode_force_error :
    decodeTableWord 32 0b00000000000000000000000000000011 = some .forceError := by decide
theorem test_decode_reset :
    decodeTableWord 32 0b00000000000000000000000000000100 = some .reset := by decide
theorem test_decode_decode :
    decodeTableWord 32 0b00000000000000000000000000000101 = some .decode := by decide
theorem test_decode_handle :
    decodeTableWord 32 0b00000000000000000000000000000110 = some .handle := by decide
theorem test_decode_reserved_7 :
    decodeTableWord 32 0b00000000000000000000000000000111 = some .reservedOp7 := by decide
theorem test_decode_reserved_8_f :
    decodeTableWord 32 0b00000000000000000000000000001110 = some (.reservedOp8F 0b110#3) := by decide
theorem test_decode_edge :
    decodeTableWord 32 0b10000000000000000000000000010001 = some (.edge 0x80000011#32) := by decide
theorem test_decode_bus_read :
    decodeTableWord 16 0b10000011100 = some (.busRead 0x41C#11 4) := by decide
theorem test_decode_bus_write :
    decode (.busWrite 9#32 0b00000010100#11 4 0xFFFFFFFF#32) = .ok (.busWrite 0x014#11 4 0xFFFFFFFF#32) := by rfl
/-- 60_exceptions.md R206: the bus error comes before the command. -/
theorem test_decode_misaligned_command :
    decode (.busWrite 9#32 0x001#11 4 0x00000001#32) = .error (.busError 0x001#11) := by rfl

/-! ## Commands (vectors V-CMD of 95_test_vectors.md) -/

/-- V-CMD-1 -/
theorem test_trigger_from_reset :
    got .trigger { fresh with timeUs := 1000#32 } (fun t => (t.statusWord, t.lastEdge)) =
      some (0x00000004#32, 1000#32) := by decide
/-- V-CMD-3 -/
theorem test_trigger_while_busy :
    got .trigger (capturing (flat 9) 7#32) (fun t => (t.count, t.rej)) = some (9#16, false) := by decide
/-- V-CMD-2 -/
theorem test_advance_to_responding :
    got .advance { fresh with triggered := true } (·.statusWord) = some 0x00000005#32 := by decide
/-- V-CMD-4 -/
theorem test_advance_to_error :
    got .advance { fresh with triggered := true, error := true, hreq := true } (·.statusWord) =
      some 0x00000037#32 := by decide
/-- V-CMD-5 -/
theorem test_force_error :
    got .forceError (capturing (flat 2) 7#32) (·.statusWord) = some 0x00000015#32 := by decide
/-- V-CMD-7 -/
theorem test_reset_in_responding :
    got .reset (capturing (flat 9) 7#32) (fun t => (t.statusWord, readRegister t 0x100#11)) =
      some (0#32, 0#32) := by decide
/-- V-CMD-8 -/
theorem test_reset_keeps_reading :
    got .reset { fresh with temp := 0x00FB#16, hum := 0x0190#16, valid := true, rej := true }
      (fun t => (readRegister t 0x014#11, t.statusWord)) = some (0x00FB0190#32, 0x00000100#32) := by decide
/-- V-CMD-9 -/
theorem test_nop_clears_rej :
    got .nop { fresh with rej := true, error := true } (·.statusWord) = some 0x00000010#32 := by decide
/-- V-CMD-10 -/
theorem test_decode_in_responding_rejected :
    got .decode (capturing (flat 9) 7#32) (·.statusWord) = some 0x00000205#32 := by decide
/-- V-CMD-11 -/
theorem test_rsvd_word_rejected :
    got (.busWrite 0x000#11 4 0x00000017#32) fresh (·.statusWord) = some 0x00000200#32 := by decide
/-- V-CMD-12, for each reserved row -/
theorem test_reserved_7_rejected : got .reservedOp7 fresh (·.statusWord) = some 0x00000200#32 := by decide
theorem test_reserved_f_rejected :
    got (.reservedOp8F 7#3) fresh (·.statusWord) = some 0x00000200#32 := by decide
/-- V-CMD-6 -/
theorem test_handle_cleans_up :
    got .handle { capturing (flat 2) 7#32 with error := true } (fun t => (t.statusWord, t.count)) =
      some (0#32, 0#16) := by decide
/-- V-CMD-14: ERROR_FIRST -/
theorem test_handle_error_first :
    got .handle { full #v[0x01, 0x90, 0x00, 0xFB, 0x8C] with
      state := .responding, error := true, hreq := true, cfg := ⟨5, 50#32, .errorFirst, 0⟩ }
      (·.statusWord) = some 0#32 := by decide

/-! ## Edges (vectors V-EDGE) -/

/-- V-EDGE-2: the edge that fills the buffer -/
theorem test_edge_fills :
    got (.edge 105902#32) (capturing (flat 84) 105876#32)
      (fun t => (readDelta t.deltas 84, t.count, t.finished, t.hreq, t.error)) =
      some (26#32, 85#16, true, true, false) := by decide
/-- V-EDGE-5: the delta wraps -/
theorem test_edge_wraps :
    got (.edge 0x10#32) (capturing (flat 3) 0xFFFFFFF0#32) (fun t => (readDelta t.deltas 3, t.count)) =
      some (0x20#32, 4#16) := by decide
/-- V-EDGE-4: the (N+1)-th edge -/
theorem test_edge_beyond_full :
    got (.edge 106353#32) { capturing (flat 85) 7#32 with finished := true }
      (fun t => (t.statusWord, t.deltas, t.lastEdge)) =
      some (0x0000003D#32, flat 85, 106353#32) := by decide

/-! ## Decoding of a full buffer (vectors V-DEC) -/

/-- V-DEC-1 -/
theorem test_decode_valid :
    got .decode (full #v[0x01, 0x90, 0x00, 0xFB, 0x8C]) (fun t => (readRegister t 0x014#11, t.statusWord)) =
      some (0x00FB0190#32, 0x00000140#32) := by decide
/-- V-DEC-3, through HANDLE and with a negative temperature -/
theorem test_handle_negative_temperature :
    got .handle (full #v[0x02, 0x8A, 0x80, 0x65, 0x71]) (fun t => (readRegister t 0x014#11, t.statusWord)) =
      some (0xFF9B028A#32, 0x00000140#32) := by decide
/-- V-DEC-2 -/
theorem test_decode_checksum_error :
    got .decode (full #v[0x01, 0x90, 0x00, 0xFB, 0x8D])
      (fun t => (readRegister t 0x014#11, t.statusWord, readRegister t 0x00C#11, readRegister t 0x010#11)) =
      some (0#32, 0x00000080#32, 0x019000FB#32, 0x8D#32) := by decide
/-- V-DEC-4: negative zero -/
theorem test_negative_zero : temperature #v[0x00, 0x00, 0x80, 0x00, 0x80] = 0#16 := by decide
/-- V-DEC-5: the least temperature -/
theorem test_least_temperature : temperature #v[0xFF, 0xFF, 0xFF, 0xFF, 0xFC] = 0x8001#16 := by decide
/-- V-BIT-1, V-BIT-2: the comparison with T is strict -/
theorem test_bit_threshold :
    streamBit ⟨0, 50#32, .finishedFirst, 0⟩ [0#32, 50#32] 0 = false ∧
      streamBit ⟨0, 50#32, .finishedFirst, 0⟩ [0#32, 51#32] 0 = true := by decide

/-! ## The bus (vectors V-BUS) and hardware reset -/

/-- V-BUS-2, V-BUS-3 -/
theorem test_read_delta_window :
    readAt 0x120#11 (capturing (flat 9) 7#32) = some (some 0x1A#32) ∧
      readAt 0x124#11 (capturing (flat 9) 7#32) = some (some 0#32) := by decide
/-- V-BUS-4, V-BUS-5, V-BUS-10, V-BUS-11 -/
theorem test_read_constants :
    readAt 0x01C#11 fresh = some (some 0x00050055#32) ∧ readAt 0x020#11 fresh = some (some 0x32#32) ∧
      readAt 0x600#11 fresh = some (some 0#32) ∧ readAt 0x4FC#11 (full #v[1, 2, 3, 4, 5]) = some (some 0#32) := by
  decide
/-- V-BUS-6 -/
theorem test_write_to_reading_ignored :
    got (.busWrite 0x014#11 4 0xFFFFFFFF#32) { fresh with temp := 0x00FB#16, hum := 0x0190#16, rej := true }
      (fun t => (readRegister t 0x014#11, t.rej)) = some (0x00FB0190#32, true) := by decide
/-- V-BUS-8 -/
theorem test_misaligned_command_faults :
    exec (.busWrite 0x001#11 4 0x00000001#32) fresh = .fault (.busError 0x001#11) := by rfl
/-- V-RST-1 -/
theorem test_hardware_reset :
    hwReset { full #v[1, 2, 3, 4, 5] with lastEdge := 9#32, valid := true, temp := 5#16 } = fresh := by decide

/-! ## Placed table words run as the first instruction after reset -/

theorem test_placed_trigger_runs :
    step (State.reset.withFetchWord 32 1) = exec .trigger State.reset := by rfl
theorem test_placed_read_runs :
    step (State.reset.withFetchWord 16 0x008) = exec (.busRead 0x008#11 4) State.reset := by rfl

/-! ## Witnesses: states and operands that meet the hypotheses of the statements -/

theorem witness_DecodeOfEncodeIsTheInstruction :
    (Instr.handle).wf = true ∧ (Instr.reservedOp8F 7#3).wf = true ∧ (Instr.edge 0xFFFFFFFF#32).wf = true ∧
      (Instr.busRead 0x7FC#11 4).wf = true ∧ (Instr.busWrite 0x000#11 4 0x00000010#32).wf = true ∧
      (Instr.busWrite 0x7FC#11 4 0#32).wf = true := by decide
theorem witness_EncodeOfDecodeIsTheEvent :
    decode (.busWrite 3#32 0x000#11 4 0x00000010#32) = .ok (.busWrite 0x000#11 4 0x00000010#32) ∧
      decode (.busWrite 3#32 0x000#11 4 0x0000000F#32) = .ok (.reservedOp8F 7#3) ∧
      decode (.busRead 3#32 0x7FC#11 4) = .ok (.busRead 0x7FC#11 4) := ⟨rfl, rfl, rfl⟩
theorem witness_CmdWritePerformsItsCommand :
    decodeCommand 0x00000000#32 = some .nop ∧ decodeCommand 0x0000000F#32 = some (.reservedOp8F 7#3) := by decide
theorem witness_StepRunsTheDecodedInstruction :
    ({ fresh with events := [.edge 500#32] } : State).rst = false ∧
      ({ fresh with events := [.edge 500#32] } : State).events = .edge 500#32 :: [] ∧
      decode (.edge 500#32) = .ok (.edge 500#32) := ⟨rfl, rfl, rfl⟩
theorem witness_NoEventNoChange : (capturing (flat 9) 7#32).events = [] := rfl
theorem witness_PlacedTableWordRunsNext :
    decodeTableWord 11 0x7FC = some (.busRead 0x7FC#11 4) ∧ decodeTableWord 16 0x000 = some (.busRead 0x000#11 4) ∧
      decodeTableWord 32 0xF = some (.reservedOp8F 7#3) ∧ decodeTableWord 32 0x10 = some (.edge 0x10#32) ∧
      decodeTableWord 32 0xFFFFFFFF = some (.edge 0xFFFFFFFF#32) := by decide
/-- Misaligned by 1 and by 3, and aligned but narrow or wide; with the events of the step's clauses. -/
theorem witness_BusErrorHasNoOtherEffect :
    ¬(4 = 4 ∧ (0x001#11).toNat % 4 = 0) ∧ ¬(4 = 4 ∧ (0x7FF#11).toNat % 4 = 0) ∧
      ¬(2 = 4 ∧ (0x000#11).toNat % 4 = 0) ∧ ¬(8 = 4 ∧ (0x000#11).toNat % 4 = 0) ∧
      ({ fresh with events := [.busRead 5#32 0x001#11 4] } : State).rst = false ∧
      ({ fresh with events := [.busRead 5#32 0x001#11 4] } : State).events = .busRead 5#32 0x001#11 4 :: [] ∧
      ({ fresh with events := [.busWrite 5#32 0x001#11 4 1#32] } : State).rst = false ∧
      ({ fresh with events := [.busWrite 5#32 0x001#11 4 1#32] } : State).events =
        .busWrite 5#32 0x001#11 4 1#32 :: [] := by decide
theorem witness_WellFormedInstructionsComplete :
    (Instr.decode).wf = true ∧ (Instr.busRead 0x7FC#11 4).wf = true ∧
      (Instr.busWrite 0x000#11 4 0xFFFFFFFF#32).wf = true := by decide
theorem witness_ResetConstantHoldsResetValues :
    (0x000#11 : Offset) ≠ 0x01C#11 ∧ (0x000#11 : Offset) ≠ 0x020#11 ∧ (0x7FF#11 : Offset) ≠ 0x01C#11 ∧
      (0x7FF#11 : Offset) ≠ 0x020#11 := by decide
theorem witness_HardwareResetClearsEverything :
    ({ full #v[1, 2, 3, 4, 5] with rst := true, events := [.hwreset 9#32] } : State).events = .hwreset 9#32 :: [] :=
  rfl
theorem witness_HeldResetIgnoresEvents :
    ({ fresh with rst := true, events := [.busRead 5#32 0x001#11 4] } : State).rst = true ∧
      ({ fresh with rst := true, events := [.busRead 5#32 0x001#11 4] } : State).events =
        .busRead 5#32 0x001#11 4 :: [] ∧
      ∀ now, (.busRead 5#32 0x001#11 4 : Event) ≠ .hwreset now := ⟨rfl, rfl, nofun⟩
/-- A clean Idle block; an Idle block with `triggered` and one that is Responding, each busy; Idle with an error. -/
theorem witness_TriggerStartsACycle :
    (fresh.state = .idle ∧ fresh.triggered = false) ∧
      ((capturing [] 7#32).state ≠ .idle ∧ ({ fresh with triggered := true } : State).triggered = true) ∧
      (({ fresh with error := true } : State).state = .idle ∧ ({ fresh with error := true } : State).triggered = false ∧
        ({ fresh with error := true } : State).error = true) := by decide
theorem witness_AdvanceAppliesNextOnce :
    (full #v[0, 0, 0, 0, 0]).state = .finished ∧ ({ fresh with state := .error } : State).state = .error ∧
      ((capturing [] 7#32).state = .responding ∧ (capturing [] 7#32).finished = false ∧
        (capturing [] 7#32).error = false) ∧
      (({ capturing (flat 85) 7#32 with finished := true, error := true } : State).state = .responding ∧
        ({ capturing (flat 85) 7#32 with finished := true, error := true } : State).finished = true ∧
        ({ capturing (flat 85) 7#32 with finished := true, error := true } : State).error = true) := by decide
/-- V-CMD-15 -/
theorem witness_TwoAdvancesFromIdleToFinished :
    ({ capturing (flat 85) 7#32 with state := .idle, finished := true } : State).state = .idle ∧
      ({ capturing (flat 85) 7#32 with state := .idle, finished := true } : State).triggered = true ∧
      ({ capturing (flat 85) 7#32 with state := .idle, finished := true } : State).finished = true ∧
      ({ capturing (flat 85) 7#32 with state := .idle, finished := true } : State).error = false := by decide
/-- FORCE_ERROR and the ADVANCE after it complete from Idle, Responding (once without `finished`, once with it under
ERROR_FIRST), Finished and Error, and HANDLE after it from Responding. -/
theorem witness_ForceErrorSetsOnlyTheFlag :
    (∃ t u, exec .forceError fresh = .next t ∧ exec .advance t = .next u ∧ fresh.state = .idle) ∧
      (∃ t u, exec .forceError (capturing (flat 84) 7#32) = .next t ∧ exec .advance t = .next u ∧
        (capturing (flat 84) 7#32).state = .responding ∧
        ¬((capturing (flat 84) 7#32).finished = true ∧ (capturing (flat 84) 7#32).cfg.prio = .finishedFirst)) ∧
      (∃ t u, exec .forceError errorFirstFull = .next t ∧ exec .advance t = .next u ∧
        errorFirstFull.state = .responding ∧
        ¬(errorFirstFull.finished = true ∧ errorFirstFull.cfg.prio = .finishedFirst)) ∧
      (∃ t u, exec .forceError (full #v[0, 0, 0, 0, 0]) = .next t ∧ exec .advance t = .next u ∧
        (full #v[0, 0, 0, 0, 0]).state = .finished) ∧
      (∃ t u, exec .forceError { fresh with state := .error } = .next t ∧ exec .advance t = .next u ∧
        ({ fresh with state := .error } : State).state = .error) ∧
      (∃ t u, (capturing (flat 2) 7#32).state = .responding ∧ exec .forceError (capturing (flat 2) 7#32) = .next t ∧
        exec .handle t = .next u) :=
  ⟨⟨_, _, rfl, rfl, rfl⟩, ⟨_, _, rfl, rfl, rfl, by decide⟩, ⟨_, _, rfl, rfl, rfl, by decide⟩, ⟨_, _, rfl, rfl, rfl⟩,
    ⟨_, _, rfl, rfl, rfl⟩, ⟨_, _, rfl, rfl, rfl⟩⟩
theorem witness_ResetIsCleanupInEveryState : ∃ t, exec .reset (capturing (flat 40) 7#32) = .next t := ⟨_, rfl⟩
theorem fresh_statedInv : StatedInv fresh := by constructor <;> decide
theorem capturing_84_statedInv : StatedInv (capturing (flat 84) 7#32) := by constructor <;> decide
theorem witness_ResetIsCleanupInEveryState_idle :
    StatedInv fresh ∧ bufferWf fresh = true ∧ fresh.state = .idle ∧ fresh.triggered = false ∧ fresh.finished = false ∧
      fresh.error = false :=
  ⟨fresh_statedInv, by decide, by decide, by decide, by decide, by decide⟩
/-- The four results of `next`: Finished, Error, Responding and Idle. -/
theorem witness_HandleAdvancesAndDispatches :
    nextPsm .finishedFirst (full #v[0, 0, 0, 0, 0]).state (full #v[0, 0, 0, 0, 0]).triggered
        (full #v[0, 0, 0, 0, 0]).finished (full #v[0, 0, 0, 0, 0]).error = .finished ∧
      ({ errorFirstFull with error := true } : State).nextState = .error ∧
      (capturing (flat 84) 7#32).nextState = .responding ∧ fresh.nextState = .idle := by decide
/-- DECODE outside Finished; in Finished with a matching checksum (of bytes on each side of the sign bit) and with another. -/
theorem witness_DecodeStoresOrFlags :
    (capturing (flat 85) 7#32).state ≠ .finished ∧
      (full #v[0x01, 0x90, 0x00, 0xFB, 0x8C]).state = .finished ∧
      #v[0x01, 0x90, 0x7F, 0xFF, 0x0F] = decodeBytes testBuild (full #v[0x01, 0x90, 0x7F, 0xFF, 0x0F]).deltas ∧
      (0x01 + 0x90 + 0x7F + 0xFF) % 256 = 0x0F ∧
      #v[0x02, 0x8A, 0x80, 0x65, 0x71] = decodeBytes testBuild (full #v[0x02, 0x8A, 0x80, 0x65, 0x71]).deltas ∧
      (0x02 + 0x8A + 0x80 + 0x65) % 256 = 0x71 ∧
      #v[0x01, 0x90, 0x00, 0xFB, 0x8D] = decodeBytes testBuild (full #v[0x01, 0x90, 0x00, 0xFB, 0x8D]).deltas ∧
      (0x01 + 0x90 + 0x00 + 0xFB) % 256 ≠ 0x8D := by decide
theorem witness_DecodeStoresOrFlags_second :
    ∃ t, (full #v[0x01, 0x90, 0x00, 0xFB, 0x8C]).state = .finished ∧
      exec .decode (full #v[0x01, 0x90, 0x00, 0xFB, 0x8C]) = .next t := ⟨_, rfl, rfl⟩
/-- Rejected: RSVD = 1, OP = 7, OP = 15, DECODE outside Finished. Accepted: OP = 0, OP = 6, DECODE in Finished. -/
theorem witness_RejectionSetsOnlyRej :
    16 ≤ (0x10#32).toNat ∧ 7 ≤ (0x7#32).toNat % 16 ∧ 7 ≤ (0xF#32).toNat % 16 ∧
      ((0x5#32).toNat % 16 = 5 ∧ fresh.state ≠ .finished) ∧
      ¬(16 ≤ (0#32).toNat ∨ 7 ≤ (0#32).toNat % 16 ∨ ((0#32).toNat % 16 = 5 ∧ fresh.state ≠ .finished)) ∧
      ¬(16 ≤ (6#32).toNat ∨ 7 ≤ (6#32).toNat % 16 ∨ ((6#32).toNat % 16 = 5 ∧ fresh.state ≠ .finished)) ∧
      ¬(16 ≤ (5#32).toNat ∨ 7 ≤ (5#32).toNat % 16 ∨
        ((5#32).toNat % 16 = 5 ∧ (full #v[0, 0, 0, 0, 0]).state ≠ .finished)) := by decide
/-- Recorded at positions 0 and N - 2 without filling, at N - 1 filling; unexpected with no trigger and with a full buffer. -/
theorem witness_EdgeIsRecordedOrUnexpected :
    ((capturing [] 7#32).triggered = true ∧ (capturing [] 7#32).count.toNat < capacity testBuild ∧
        (capturing [] 7#32).count.toNat + 1 ≠ capacity testBuild) ∧
      ((capturing (flat 83) 7#32).count.toNat < capacity testBuild ∧
        (capturing (flat 83) 7#32).count.toNat + 1 ≠ capacity testBuild) ∧
      ((capturing (flat 84) 7#32).triggered = true ∧ (capturing (flat 84) 7#32).count.toNat < capacity testBuild ∧
        (capturing (flat 84) 7#32).count.toNat + 1 = capacity testBuild) ∧
      fresh.triggered = false ∧ capacity testBuild ≤ (capturing (flat 85) 7#32).count.toNat := by decide
theorem witness_FirstDeltaIsMeasuredFromTrigger :
    ∃ t u, fresh.state = .idle ∧ fresh.triggered = false ∧ exec .trigger fresh = .next t ∧
      exec (.edge 101000#32) t = .next u := ⟨_, _, rfl, rfl, rfl, rfl⟩
/-- A clean Idle block with ADVANCE, a read of STATUS and an edge to come. -/
def beforeFirstEdge : State :=
  { fresh with
    timeUs := 1000#32,
    events := [cmdWrite 1000#32 0x00000002#32, .busRead 1010#32 0x004#11 4, .edge 101000#32] }
/-- Two deltas short of full, with ADVANCE to come. -/
def capturingAdvance : State := { capturing (flat 83) 7#32 with events := [cmdWrite 9#32 0x00000002#32] }
theorem witness_FirstDeltaIsMeasuredFromTrigger_step :
    ∃ t, capturingAdvance.triggered = true ∧ (∀ n rest, capturingAdvance.events ≠ .edge n :: rest) ∧
      step capturingAdvance = .next t ∧ t.triggered = true := ⟨_, rfl, nofun, rfl, rfl⟩
/-- TRIGGER, then the two steps that take no edge, then the edge. -/
theorem witness_FirstDeltaIsMeasuredFromTrigger_run :
    ∃ t u v, beforeFirstEdge.state = .idle ∧ beforeFirstEdge.triggered = false ∧
      exec .trigger beforeFirstEdge = .next t ∧ (∀ e ∈ t.events.take 2, ∀ m, e ≠ .edge m) ∧
      (∀ j w, j ≤ 2 → Host.Core.run core j t = .next w → w.triggered = true) ∧
      Host.Core.run core 2 t = .next u ∧ u.rst = false ∧ u.events = .edge 101000#32 :: [] ∧ step u = .next v := by
  refine ⟨_, _, _, rfl, rfl, rfl, ?_, ?_, rfl, rfl, rfl, rfl⟩
  · intro e he m hm
    subst hm
    simp [startCycle, emptyBuffer, accept, beforeFirstEdge, fresh, State.reset, cmdWrite] at he
  · intro j w hj hw
    interval_cases j <;> cases hw <;> rfl
theorem witness_EdgeLeavesOtherRegisters :
    (∃ t, exec (.edge 9#32) (capturing (flat 84) 7#32) = .next t) ∧
      (0x24C#11 : Offset) ≠ 0x004#11 ∧ (0x24C#11 : Offset) ≠ 0x008#11 ∧ (0x24C#11 : Offset) ≠ 0x018#11 ∧
      deltaIndex? 0x24C#11 ≠ some (capturing (flat 84) 7#32).count.toNat ∧
      deltaIndex? 0x4FC#11 ≠ some (capturing (flat 84) 7#32).count.toNat :=
  ⟨⟨_, rfl⟩, by decide⟩
/-- Two deltas short of full, with the two edges to come. -/
def twoToCome : State :=
  { capturing (flat 83) 7#32 with events := edgeEvents 7#32 [50#32, 26#32] ++ [.hwreset 0#32] }
/-- Two edges that fill the buffer, and none. -/
theorem witness_EdgesAreRecordedInOrder :
    (twoToCome.rst = false ∧ twoToCome.triggered = true ∧ bufferWf twoToCome = true ∧
      twoToCome.count.toNat + [50#32, 26#32].length ≤ capacity testBuild ∧
      twoToCome.events = edgeEvents twoToCome.lastEdge [50#32, 26#32] ++ [.hwreset 0#32]) ∧
    (bufferWf (capturing (flat 85) 7#32) = true ∧
      (capturing (flat 85) 7#32).count.toNat + ([] : List Word).length ≤ capacity testBuild ∧
      (capturing (flat 85) 7#32).events = edgeEvents 7#32 [] ++ []) := by decide
/-- Two buffers that differ in every preamble delta and LOW duration. -/
theorem witness_DecoderReadsOnlyHighDurations :
    ∀ k, k < 40 →
      readDelta (waveform #v[1, 2, 3, 4, 10]) (5 + 2 * k + 1) =
        readDelta ([1#32, 2#32, 3#32, 4#32, 5#32] ++ dataDeltas 0xFFFFFFFF#32 26#32 70#32 #v[1, 2, 3, 4, 10])
          (5 + 2 * k + 1) := by decide
/-- HIGH durations at the two sides of T: 50 is a 0 and 51 a 1. -/
theorem witness_WaveformDecodesToItsBytes :
    [100000#32, 1100#32, 30#32, 80#32, 80#32].length = preambleCount testBuild ∧
      (50#32).toNat ≤ testBuild.threshold.toNat ∧ testBuild.threshold.toNat < (51#32).toNat := by decide
theorem witness_HumidityIsBigEndian :
    ∃ t, (full #v[0xFF, 0xFF, 0xFF, 0xFF, 0xFC]).state = .finished ∧
      exec .decode (full #v[0xFF, 0xFF, 0xFF, 0xFF, 0xFC]) = .next t ∧ t.dok = true := ⟨_, rfl, rfl, rfl⟩
/-- Bit 7 of the high byte, 0 and 1, at the largest magnitude and at negative zero. -/
theorem witness_TemperatureIsSignMagnitude :
    (∃ t, exec .decode (full #v[0x03, 0xE8, 0x7F, 0xFF, 0x69]) = .next t ∧ t.dok = true ∧
        t.bytes[2].getLsbD 7 = false) ∧
      (∃ t, exec .decode (full #v[0x00, 0x00, 0xFF, 0xFF, 0xFE]) = .next t ∧ t.dok = true ∧
        t.bytes[2].getLsbD 7 = true ∧ t.bytes[2] = 0xFF#8 ∧ t.bytes[3] = 0xFF#8) ∧
      (∃ t, exec .decode (full #v[0x00, 0x00, 0x80, 0x00, 0x80]) = .next t ∧ t.dok = true ∧
        t.bytes[2] = 0x80#8 ∧ t.bytes[3] = 0x00#8) :=
  ⟨⟨_, rfl, rfl, rfl⟩, ⟨_, rfl, rfl, rfl, rfl, rfl⟩, ⟨_, rfl, rfl, rfl, rfl⟩⟩
/-- Finished with a buffer whose every delta is T. -/
def allAtThreshold : State := { full #v[0, 0, 0, 0, 0] with deltas := List.replicate 85 50#32 }
theorem witness_AllLowBufferStoresZeroReading :
    allAtThreshold.state = .finished ∧
      ∀ k, k < 40 →
        (readDelta allAtThreshold.deltas (preambleCount testBuild + 2 * k + 1)).toNat ≤ testBuild.threshold.toNat := by
  decide
/-- Responding, with the 85 edges of five bytes and HANDLE to come. -/
def cycleToCome (bs : Vector Byte 5) : State :=
  { capturing [] 1000#32 with events := edgeEvents 1000#32 (waveform bs) ++ cmdWrite 110010#32 0x00000006#32 :: [] }
/-- Bytes whose checksum holds and bytes whose checksum does not. -/
theorem witness_WholeCycleReadsTheSentBytes :
    (∀ bs : Vector Byte 5, (cycleToCome bs).rst = false ∧ (cycleToCome bs).state = .responding ∧
      (cycleToCome bs).triggered = true ∧ (cycleToCome bs).error = false ∧ (cycleToCome bs).count = 0 ∧
      [100000#32, 1100#32, 30#32, 80#32, 80#32].length = preambleCount (cycleToCome bs).cfg ∧
      (26#32).toNat ≤ (cycleToCome bs).cfg.threshold.toNat ∧ (cycleToCome bs).cfg.threshold.toNat < (70#32).toNat ∧
      (cycleToCome bs).events =
        edgeEvents (cycleToCome bs).lastEdge
          ([100000#32, 1100#32, 30#32, 80#32, 80#32] ++ dataDeltas 50#32 26#32 70#32 bs) ++
          cmdWrite 110010#32 0x00000006#32 :: []) ∧
      (0x01 + 0x90 + 0x00 + 0xFB) % 256 = 0x8C ∧ (0x01 + 0x90 + 0x00 + 0xFB) % 256 ≠ 0x8D :=
  ⟨fun _ => ⟨rfl, rfl, rfl, rfl, rfl, rfl, (by decide : 26 ≤ 50), (by decide : 50 < 70), rfl⟩, by decide, by decide⟩
/-- Each range of the register map at its ends. -/
theorem witness_BusReadReturnsTheRegister :
    ((0x024#11).toNat % 4 = 0 ∧ 0x024 ≤ (0x024#11).toNat ∧ (0x024#11).toNat < 0x100) ∧
      ((0x0FC#11).toNat % 4 = 0 ∧ 0x024 ≤ (0x0FC#11).toNat ∧ (0x0FC#11).toNat < 0x100) ∧
      ((0x500#11).toNat % 4 = 0 ∧ 0x500 ≤ (0x500#11).toNat) ∧ ((0x7FC#11).toNat % 4 = 0 ∧ 0x500 ≤ (0x7FC#11).toNat) ∧
      ¬(4 = 4 ∧ (0x7FF#11).toNat % 4 = 0) ∧ ¬(1 = 4 ∧ (0x000#11).toNat % 4 = 0) := by decide
theorem witness_OnlyCmdWritesAct :
    ((0x004#11).toNat % 4 = 0 ∧ (0x004#11 : Offset) ≠ 0x000#11) ∧
      ((0x7FC#11).toNat % 4 = 0 ∧ (0x7FC#11 : Offset) ≠ 0x000#11) ∧ ¬(4 = 4 ∧ (0x001#11).toNat % 4 = 0) ∧
      ¬(2 = 4 ∧ (0x000#11).toNat % 4 = 0) := by decide
theorem witness_FlagCommandsLeaveOtherRegisters :
    (∃ t, exec .forceError (capturing (flat 9) 7#32) = .next t) ∧ (∃ t, exec (.reservedOp8F 7#3) fresh = .next t) ∧
      (0x014#11 : Offset) ≠ 0x004#11 ∧ (∃ t, exec (.busRead 0x004#11 4) fresh = .next t) ∧
      (∃ t, exec (.busWrite 0x014#11 4 1#32) fresh = .next t) ∧ (0x014#11 : Offset) ≠ 0x000#11 :=
  ⟨⟨_, rfl⟩, ⟨_, rfl⟩, by decide, ⟨_, rfl⟩, ⟨_, rfl⟩, by decide⟩
theorem witness_SecondTriggerChangesNothing :
    (∃ t, exec .trigger fresh = .next t) ∧ ∃ t, exec .decode (full #v[0, 0, 0, 0, 0]) = .next t :=
  ⟨⟨_, rfl⟩, ⟨_, rfl⟩⟩
/-- The last address of the window and the first beyond it. -/
theorem witness_WindowStandsAtEcbBase :
    windowOffset ⟨5, 50#32, .finishedFirst, 0x1000⟩ 0x17FF = some 0x7FF#11 ∧
      windowOffset ⟨5, 50#32, .finishedFirst, 0x1000⟩ 0x1800 = none := by decide
/-- An Idle block with a stray edge to come. -/
def beforeStrayEdge : State := { fresh with events := [.edge 500#32] }
theorem beforeStrayEdge_inv : Inv beforeStrayEdge := by constructor <;> first | decide | (constructor <;> decide)
theorem witness_StepKeepsTheInvariant :
    ∃ t, Inv beforeStrayEdge ∧ step beforeStrayEdge = .next t := ⟨_, beforeStrayEdge_inv, rfl⟩
/-- ARM and an edge from reset. -/
theorem witness_ReachableStatesSatisfyTheStatedInvariants :
    ∃ t, Host.Core.run core 3
      { State.reset with cfg := testBuild, events := ScriptOp.arm.expand 1000#32 ++ [.edge 101000#32] } = .next t ∧
        t.state = .responding ∧ t.triggered = true := ⟨_, rfl, rfl, rfl⟩
theorem witness_ParametersNeverChange :
    ∃ t, step { full #v[0, 0, 0, 0, 0] with events := [.hwreset 5#32] } = .next t := ⟨_, rfl⟩
theorem witness_FlagsFallOnlyTogether :
    ∃ t, step { full #v[0, 0, 0, 0, 0] with error := true, events := [cmdWrite 5#32 0x00000004#32] } = .next t ∧
      t.triggered = false ∧ t.finished = false ∧ t.error = false := ⟨_, rfl, rfl, rfl, rfl⟩
theorem witness_OnlyTheFillingEdgeSetsFinished :
    ∃ t, exec (.edge 9#32) (capturing (flat 84) 7#32) = .next t ∧ (capturing (flat 84) 7#32).finished = false ∧
      t.finished = true := ⟨_, rfl, rfl, rfl⟩
/-- Cleared by HANDLE; set by an edge with no trigger, by one beyond a full buffer and by the one that fills it; cleared by a
step with a hardware reset. -/
theorem witness_RequestIsSetByEdgesAndClearedByHandle :
    (∃ t, exec .handle { fresh with hreq := true } = .next t ∧ t.hreq = false) ∧
      (∃ t, exec (.edge 9#32) fresh = .next t ∧ fresh.hreq = false ∧ t.hreq = true) ∧
      (∃ t, exec (.edge 9#32) (capturing (flat 85) 7#32) = .next t ∧ t.hreq = true) ∧
      (∃ t, exec (.edge 9#32) (capturing (flat 84) 7#32) = .next t ∧ t.hreq = true) ∧
      (∃ t, step { fresh with hreq := true, events := [.hwreset 5#32] } = .next t ∧ t.hreq = false) ∧
      (∃ t, step { fresh with hreq := true, events := [cmdWrite 5#32 0x00000006#32] } = .next t ∧ t.hreq = false) :=
  ⟨⟨_, rfl, rfl⟩, ⟨_, rfl, rfl, rfl⟩, ⟨_, rfl, rfl⟩, ⟨_, rfl, rfl⟩, ⟨_, rfl, rfl⟩, ⟨_, rfl, rfl⟩⟩
theorem witness_OnlyFourCommandsMoveThePsm :
    ∃ t, exec .advance { fresh with triggered := true } = .next t ∧
      t.state ≠ ({ fresh with triggered := true } : State).state := ⟨_, rfl, by decide⟩
theorem witness_ReadingChangesOnlyByAValidDecode :
    ∃ t, exec .decode (full #v[0, 0, 0, 0, 0]) = .next t ∧ t.valid ≠ (full #v[0, 0, 0, 0, 0]).valid :=
  ⟨_, rfl, by decide⟩
theorem witness_OnlyEdgesWriteTheBuffer : ∃ t, exec (.edge 9#32) (capturing (flat 84) 7#32) = .next t := ⟨_, rfl⟩
theorem witness_CyclesStartOnlyFromIdle :
    (∃ t, exec .trigger fresh = .next t ∧ fresh.triggered = false ∧ t.triggered = true) ∧
      ¬((capturing [] 7#32).state = .idle ∧ (capturing [] 7#32).triggered = false) ∧
      ¬(({ fresh with triggered := true } : State).state = .idle ∧
        ({ fresh with triggered := true } : State).triggered = false) := ⟨⟨_, rfl, rfl, rfl⟩, by decide, by decide⟩
/-- One delta short of full. -/
theorem witness_PartialBufferIsNeverDecoded :
    ∃ t, StatedInv (capturing (flat 84) 7#32) ∧ (capturing (flat 84) 7#32).count.toNat < capacity testBuild ∧
      exec .handle (capturing (flat 84) 7#32) = .next t := ⟨_, capturing_84_statedInv, by decide, rfl⟩
theorem witness_HandleRecoversFromAStrayEdge :
    ∃ t u, fresh.state = .idle ∧ fresh.triggered = false ∧ exec (.edge 500#32) fresh = .next t ∧
      exec .handle t = .next u := ⟨_, _, rfl, rfl, rfl, rfl⟩
theorem witness_RequestSurvivesReset :
    ∃ t u, exec .reset { capturing (flat 9) 7#32 with hreq := true } = .next t ∧ exec .handle t = .next u :=
  ⟨_, _, rfl, rfl⟩
/-- A clean Idle block with ARM to come. -/
def beforeArm : State := { fresh with events := ScriptOp.arm.expand 1000#32 ++ [.edge 101000#32] }
theorem witness_ArmEntersResponding :
    beforeArm.rst = false ∧ beforeArm.state = .idle ∧ beforeArm.triggered = false ∧ beforeArm.error = false ∧
      beforeArm.events = ScriptOp.arm.expand 1000#32 ++ [.edge 101000#32] := by decide

end Sys2Proof.Tests
end

/-! # The register window and the parameters (10_state.md R34, R37) -/

namespace Sys2Proof.Machine

/-! ## The STATUS word, field by field -/

/-- STATUS.STATE is the code of the PSM state. -/
theorem statusWord_toNat_mod_four (s : State) : s.statusWord.toNat % 4 = (psmCode s.state).toNat := by
  have hlow : s.statusWord.setWidth 2 = psmCode s.state := by
    rw [State.statusWord, BitVec.setWidth_setWidth_of_le _ (by decide), BitVec.setWidth_append_eq_right]
  rw [← hlow, BitVec.toNat_setWidth]

/-- Above STATE stand the eight flags, `triggered` lowest, and then zeros. -/
theorem getLsbD_statusWord_add_two (s : State) (k : Nat) :
    s.statusWord.getLsbD (k + 2) =
      [s.triggered, s.finished, s.error, s.hreq, s.dok, s.dcerr, s.valid, s.rej].getD k false := by
  by_cases hk : k < 8
  · simp only [State.statusWord, BitVec.getLsbD_setWidth, BitVec.getLsbD_append, BitVec.getLsbD_ofBool]
    interval_cases k <;> simp
  · rw [List.getD_eq_default _ _ (not_lt.mp hk), State.statusWord, BitVec.getLsbD_setWidth,
      BitVec.getLsbD_of_ge _ (k + 2) (by omega), Bool.and_false]

/-! ## Registers at their offsets -/

/-- STATUS stands at offset 0x004. -/
@[simp] theorem readRegister_status (s : State) : readRegister s 0x004#11 = s.statusWord := rfl

/-- PARAM stands at offset 0x01C. -/
@[simp] theorem readRegister_param (s : State) :
    readRegister s 0x01C#11 = BitVec.ofNat 16 (preambleCount s.cfg) ++ BitVec.ofNat 16 (capacity s.cfg) := rfl

/-- THRESH stands at offset 0x020. -/
@[simp] theorem readRegister_thresh (s : State) : readRegister s 0x020#11 = s.cfg.threshold := rfl

/-- An aligned 32-bit write to any offset but CMD is ignored (20_memory.md R54). -/
theorem exec_busWrite_of_ne_cmd (s : State) {addr : Offset} (v : Word) (ha : addr.toNat % 4 = 0)
    (h0 : addr ≠ cmdOffset) : exec (.busWrite addr 4 v) s = .next s := by
  have haligned : aligned32 addr 4 = true := (aligned32_iff addr 4).mpr ⟨rfl, ha⟩
  simp only [exec, execBusWrite, haligned, if_true, if_neg h0]

/-- Settles O36: the word's fields are read off `getLsbD_statusWord_add_two`. -/
theorem statusMirrorsTheState : Obligations.StatusMirrorsTheState := by
  unfold Obligations.StatusMirrorsTheState
  refine ⟨by decide, fun s => ?_⟩
  have hwrite (v : Word) : exec (.busWrite 0x004#11 4 v) s = .next s :=
    exec_busWrite_of_ne_cmd s v (by decide) (by decide)
  have hflag := getLsbD_statusWord_add_two s
  have hreserved (k : Nat) (hk : 10 ≤ k) : s.statusWord.getLsbD k = false := by
    obtain ⟨j, rfl⟩ := Nat.exists_eq_add_of_le' (show 2 ≤ k by omega)
    rw [hflag, List.getD_eq_default _ _ (show 8 ≤ j by omega)]
  refine ⟨readRegister_status s, hwrite, ?_, hflag 0, hflag 1, hflag 2, hflag 3, hflag 4, hflag 5, hflag 6,
    hflag 7, hreserved⟩
  rw [statusWord_toNat_mod_four]
  cases s.state <;> rfl

/-! ## The parameters -/

/-- No step changes the build. -/
theorem step_cfg {s t : State} (h : step s = .next t) : t.cfg = s.cfg := by
  rcases step_cases h with ⟨_, rfl⟩ | ⟨e, rest, _, _, _, rfl⟩ | ⟨now, rest, _, rfl⟩ | ⟨now, rest, _, _, rfl⟩ |
    ⟨e, rest, i, _, _, _, hx⟩
  · rfl
  · obtain ⟨d, hd⟩ := eventUnderRst_eq e (takeEvent e rest s)
    rw [hd, takeEvent_cfg]
  · rw [hwReset_cfg, takeEvent_cfg]
  · rw [assertRst_cfg, takeEvent_cfg]
  · obtain ⟨hcfg, _⟩ := (exec_effect hx).inputs
    rw [hcfg, takeEvent_cfg]

/-- Settles O44: PARAM and THRESH are read from the build alone, which `step_cfg` keeps. -/
theorem parametersNeverChange : Obligations.ParametersNeverChange := by
  unfold Obligations.ParametersNeverChange
  intro s t h
  have hcfg := step_cfg h
  exact ⟨hcfg, by rw [readRegister_param, readRegister_param, hcfg],
    by rw [readRegister_thresh, readRegister_thresh, hcfg]⟩

end Sys2Proof.Machine

/-! # Bus accesses (20_memory.md R52 to R54) -/

namespace Sys2Proof.Machine

/-! ## The bus error, as a meaning and as a step -/

section

variable {addr : Offset} {bytes : Nat} (h : ¬(bytes = 4 ∧ addr.toNat % 4 = 0))
include h

/-- `aligned32` refuses a misaligned or non-32-bit access. -/
theorem aligned32_eq_false : aligned32 addr bytes = false :=
  Bool.eq_false_iff.mpr (mt (aligned32_iff addr bytes).mp h)

/-- A read of that kind returns no data and no state. -/
theorem exec_busRead_busError (s : State) : exec (.busRead addr bytes) s = .fault (.busError addr) := by
  simp [exec, execBusRead, aligned32_eq_false h]

/-- A write of that kind changes no state, at CMD too. -/
theorem exec_busWrite_busError (v : Word) (s : State) :
    exec (.busWrite addr bytes v) s = .fault (.busError addr) := by
  simp [exec, execBusWrite, aligned32_eq_false h]

/-- The decoder finds the bus error of a read. -/
theorem decode_busRead_busError (now : Word) : decode (.busRead now addr bytes) = .error (.busError addr) := by
  simp [decode, wordAccess_eq_aligned32, aligned32_eq_false h]

/-- The decoder finds the bus error of a write before it looks at the command word (60_exceptions.md R206). -/
theorem decode_busWrite_busError (now v : Word) :
    decode (.busWrite now addr bytes v) = .error (.busError addr) := by
  simp [decode, wordAccess_eq_aligned32, aligned32_eq_false h]

end

/-- With `rst` released, a step whose event decodes to a bus error stops with it. -/
theorem step_of_decode_busError {s : State} {e : Event} {rest : List Event} {addr : Offset}
    (hrst : s.rst = false) (he : s.events = e :: rest) (hd : decode e = .error (.busError addr)) :
    step s = .fault (.busError addr) := by
  simp [step, he, hrst, hd]

/-- Settles O9: the meaning and the decoder refuse the same accesses. -/
theorem busErrorHasNoOtherEffect : Obligations.BusErrorHasNoOtherEffect := by
  unfold Obligations.BusErrorHasNoOtherEffect
  intro s addr bytes v h
  refine ⟨exec_busRead_busError h s, exec_busWrite_busError h v s,
    fun now rest hrst => ⟨fun he => ?_, fun he => ?_⟩⟩
  · exact step_of_decode_busError hrst he (decode_busRead_busError h now)
  · exact step_of_decode_busError hrst he (decode_busWrite_busError h now v)

/-! ## Writes -/

/-- A 32-bit write to CMD performs its word. -/
theorem exec_busWrite_cmd (s : State) (v : Word) : exec (.busWrite cmdOffset 4 v) s = performCommand v s := rfl

/-- Settles O37: one lemma for each of the three branches of `execBusWrite`. -/
theorem onlyCmdWritesAct : Obligations.OnlyCmdWritesAct := by
  unfold Obligations.OnlyCmdWritesAct
  exact ⟨fun s _ v ha h0 => exec_busWrite_of_ne_cmd s v ha h0, exec_busWrite_cmd,
    fun s _ _ v h => exec_busWrite_busError h v s⟩

/-! ## What each offset reads -/

section

variable (s : State)

/-- CMD reads 0. -/
@[simp] theorem readRegister_cmd : readRegister s 0x000#11 = 0 := rfl

/-- COUNT stands at offset 0x008. -/
@[simp] theorem readRegister_count : readRegister s 0x008#11 = s.count.setWidth 32 := rfl

/-- DATA0 stands at offset 0x00C, the first byte uppermost. -/
@[simp] theorem readRegister_data0 :
    readRegister s 0x00C#11 = s.bytes[0] ++ s.bytes[1] ++ s.bytes[2] ++ s.bytes[3] := rfl

/-- DATA1 stands at offset 0x010. -/
@[simp] theorem readRegister_data1 : readRegister s 0x010#11 = s.bytes[4].setWidth 32 := rfl

/-- READING stands at offset 0x014. -/
@[simp] theorem readRegister_reading : readRegister s 0x014#11 = s.temp ++ s.hum := rfl

/-- LAST_EDGE stands at offset 0x018. -/
@[simp] theorem readRegister_lastEdge : readRegister s 0x018#11 = s.lastEdge := rfl

/-- PARAM as a number: neither half overflows its 16 bits. -/
theorem readRegister_param_ofNat :
    readRegister s 0x01C#11 = BitVec.ofNat 32 (s.cfg.preamble.val * 65536 + (s.cfg.preamble.val + 80)) := by
  have hp := s.cfg.preamble.isLt
  rw [readRegister_param]
  apply BitVec.eq_of_toNat_eq
  rw [BitVec.toNat_append, ← Nat.shiftLeft_add_eq_or_of_lt (BitVec.isLt _), Nat.shiftLeft_eq]
  simp (disch := omega) only [BitVec.toNat_ofNat, preambleCount, capacity, dataCount, Nat.mod_eq_of_lt]

/-- The offset of DELTA[i] does not wrap. -/
theorem toNat_deltaOffset (i : Fin 256) : (BitVec.ofNat 11 (0x100 + 4 * i.val)).toNat = 0x100 + 4 * i.val := by
  rw [BitVec.toNat_ofNat]
  omega

/-- It names index `i`. -/
theorem deltaIndex?_deltaOffset (i : Fin 256) :
    deltaIndex? (BitVec.ofNat 11 (0x100 + 4 * i.val)) = some i.val := by
  rw [deltaIndex?, toNat_deltaOffset, if_pos (by omega), Option.some_inj]
  omega

/-- DELTA[i] reads entry `i` below the count and 0 from there on. -/
theorem readRegister_delta (i : Fin 256) :
    readRegister s (BitVec.ofNat 11 (0x100 + 4 * i.val)) =
      if i.val < s.count.toNat then readDelta s.deltas i.val else 0 := by
  rw [readRegister, deltaIndex?_deltaOffset]

/-- An offset between THRESH and the DELTA window, or past that window, reads 0. -/
theorem readRegister_unmapped {addr : Offset}
    (h : (0x024 ≤ addr.toNat ∧ addr.toNat < 0x100) ∨ 0x500 ≤ addr.toNat) : readRegister s addr = 0 := by
  have hdelta : deltaIndex? addr = none := if_neg (by omega)
  have hne {k : Nat} (hk : k < 0x024) : addr ≠ BitVec.ofNat 11 k := by
    rintro rfl
    rw [BitVec.toNat_ofNat] at h
    omega
  simp [readRegister, hdelta, hne]

end

/-! ## Reads -/

/-- An aligned 32-bit read puts the register's value on the bus and changes nothing else. -/
theorem exec_busRead_of_eq {s : State} {addr : Offset} {w : Word} (ha : addr.toNat % 4 = 0)
    (hw : readRegister s addr = w) : exec (.busRead addr 4) s = .next { s with busData := some w } := by
  have haligned : aligned32 addr 4 = true := (aligned32_iff addr 4).mpr ⟨rfl, ha⟩
  simp only [exec, execBusRead, haligned, if_true, hw]

/-- Settles O35: what each class of offsets reads, put on the bus by `exec_busRead_of_eq`. -/
theorem busReadReturnsTheRegister : Obligations.BusReadReturnsTheRegister := by
  unfold Obligations.BusReadReturnsTheRegister
  intro s
  have hdelta (i : Fin 256) : (BitVec.ofNat 11 (0x100 + 4 * i.val)).toNat % 4 = 0 := by
    rw [toNat_deltaOffset]
    omega
  exact ⟨exec_busRead_of_eq rfl (readRegister_cmd s), exec_busRead_of_eq rfl (readRegister_status s),
    exec_busRead_of_eq rfl (readRegister_count s), exec_busRead_of_eq rfl (readRegister_data0 s),
    exec_busRead_of_eq rfl (readRegister_data1 s), exec_busRead_of_eq rfl (readRegister_reading s),
    exec_busRead_of_eq rfl (readRegister_lastEdge s), exec_busRead_of_eq rfl (readRegister_param_ofNat s),
    exec_busRead_of_eq rfl (readRegister_thresh s),
    fun i => exec_busRead_of_eq (hdelta i) (readRegister_delta s i),
    fun _ ha h => exec_busRead_of_eq ha (readRegister_unmapped s h),
    fun _ _ h => exec_busRead_busError h s⟩

end Sys2Proof.Machine

/-! # Rejection of CMD writes (30_encoding.md R82) -/

namespace Sys2Proof.Machine

/-! ## The fields of a CMD word as numbers -/

/-- OP is the last hexadecimal digit. -/
theorem cmdOp_toNat (v : Word) : (cmdOp v).toNat = v.toNat % 16 := by
  simp [cmdOp]

/-- RSVD is the word without that digit. -/
theorem cmdRsvd_toNat (v : Word) : (cmdRsvd v).toNat = v.toNat / 16 := by
  rw [cmdRsvd, BitVec.extractLsb'_toNat, Nat.shiftRight_eq_div_pow]
  exact Nat.mod_eq_of_lt (by omega)

/-! ## The three conditions -/

/-- The conditions under which a write of `v` to CMD is rejected, on the word's fields. -/
def CmdRejected (v : Word) (s : State) : Prop :=
  cmdRsvd v ≠ 0 ∨ 7 ≤ (cmdOp v).toNat ∨ (cmdOp v = 5 ∧ s.state ≠ .finished)

/-- The conditions on the word as a number. -/
theorem cmdRejected_iff (v : Word) (s : State) :
    CmdRejected v s ↔ 16 ≤ v.toNat ∨ 7 ≤ v.toNat % 16 ∨ (v.toNat % 16 = 5 ∧ s.state ≠ .finished) := by
  have hrsvd : cmdRsvd v ≠ 0 ↔ 16 ≤ v.toNat := by
    rw [Ne, ← BitVec.toNat_inj, cmdRsvd_toNat]
    change ¬v.toNat / 16 = 0 ↔ 16 ≤ v.toNat
    omega
  have hop : cmdOp v = 5 ↔ v.toNat % 16 = 5 := by
    rw [← BitVec.toNat_inj, cmdOp_toNat]
    rfl
  rw [CmdRejected, hrsvd, cmdOp_toNat, hop]

/-- Under any of the conditions the command word is rejected. -/
theorem performCommand_of_rejected {v : Word} {s : State} (h : CmdRejected v s) :
    performCommand v s = .next (reject s) := by
  unfold performCommand
  rcases h with hrsvd | hop | hdecode
  · rw [if_pos hrsvd]
  · rw [if_pos hop, ite_self]
  · rw [if_pos hdecode, ite_self, ite_self]

/-! ## Accepted commands clear `rej` -/

/-- The decoder's body does not touch `rej`. -/
@[simp] theorem decodeBody_rej (s : State) : (decodeBody s).rej = s.rej := by
  rcases decodeBody_cases s with ⟨_, e⟩ | ⟨_, e⟩ <;> rw [e] <;> simp

/-- Every effect of a CMD write that is not rejected starts from `accept`. -/
theorem Effect.rej_eq_false {v : Word} {s t : State} (h : Effect (.busWrite cmdOffset 4 v) s t)
    (hv : ¬CmdRejected v s) : t.rej = false := by
  cases h with
  | decodeRejected hi hf =>
    rcases hi with hi | hi <;> cases hi
    exact absurd (.inr (.inr ⟨rfl, hf⟩)) hv
  | rejected hi =>
    rcases hi with hi | ⟨_, hi⟩ | ⟨_, hi, hr⟩ <;> cases hi
    exact absurd (hr.imp_right .inl) hv
  | edge _ hi => cases hi
  | read _ hi => cases hi
  | writeIgnored _ _ hi _ h0 =>
    cases hi
    exact absurd rfl h0
  | _ => simp

/-- Outside the conditions a CMD write is performed and leaves `rej` clear. -/
theorem exec_busWrite_cmd_accepted {v : Word} {s : State} (hv : ¬CmdRejected v s) :
    ∃ t, exec (.busWrite cmdOffset 4 v) s = .next t ∧ t.rej = false := by
  obtain ⟨t, ht, heffect⟩ := performCommand_effect v s
  exact ⟨t, (exec_busWrite_cmd s v).trans ht, heffect.rej_eq_false hv⟩

/-- Settles O23: the three conditions are `CmdRejected`, and they split the CMD writes into `reject` and the effects
that start from `accept`. -/
theorem rejectionSetsOnlyRej : Obligations.RejectionSetsOnlyRej := by
  unfold Obligations.RejectionSetsOnlyRej
  refine ⟨fun v s h => ?_, fun v s h => ?_, fun _ => rfl, fun _ _ => rfl⟩
  · exact (exec_busWrite_cmd s v).trans (performCommand_of_rejected ((cmdRejected_iff v s).mpr h))
  · exact exec_busWrite_cmd_accepted (mt (cmdRejected_iff v s).mp h)

end Sys2Proof.Machine

/-! # The edge (40_edge_capture.md R100 to R102) -/

namespace Sys2Proof.Machine

/-! ## Which branch an edge takes -/

section

variable {s : State} (n : Word)

/-- An expected edge records its delta, and completes the buffer when that was the last free entry. -/
theorem captureEdge_of_expected (ht : s.triggered = true) (hc : s.count.toNat < capacity s.cfg) :
    captureEdge n s =
      if s.count.toNat + 1 = capacity s.cfg then raiseCompletion (recordDelta n s) else recordDelta n s := by
  rcases captureEdge_cases n s with ⟨_, hroom, e⟩ | ⟨_, hN, e⟩ | ⟨hf | hfull, _⟩
  · rw [e, if_neg hroom.ne]
  · rw [e, if_pos hN]
  · cases ht.symm.trans hf
  · exact absurd hc hfull.not_gt

/-- With no trigger in flight or a full buffer an edge is unexpected. -/
theorem captureEdge_of_unexpected (hun : s.triggered = false ∨ capacity s.cfg ≤ s.count.toNat) :
    captureEdge n s = raiseUnexpectedEdge s := by
  refine if_neg fun h => ?_
  obtain ⟨ht, hc⟩ := (expectsEdge_iff s).mp h
  rcases hun with hf | hfull
  · cases ht.symm.trans hf
  · exact absurd hc hfull.not_gt

/-- Filling the buffer or not, an expected edge writes its delta at the write position and moves that on. -/
theorem captureEdge_buffer (ht : s.triggered = true) (hc : s.count.toNat < capacity s.cfg) :
    (captureEdge n s).deltas = putDelta s.deltas s.count.toNat (n - s.lastEdge) ∧
      (captureEdge n s).count = s.count + 1 := by
  rw [captureEdge_of_expected n ht hc]
  split
  · exact ⟨rfl, rfl⟩
  · exact ⟨rfl, rfl⟩

end

/-! ## EDGE -/

/-- EDGE is the capture, then `last_edge <- now` (R102). -/
theorem exec_edge (n : Word) (s : State) : exec (.edge n) s = .next { captureEdge n s with lastEdge := n } := rfl

/-- Settles O24: `captureEdge_buffer` gives the buffer after a recorded edge, and the branch it takes gives the rest of
the state. -/
theorem edgeIsRecordedOrUnexpected : Obligations.EdgeIsRecordedOrUnexpected := by
  unfold Obligations.EdgeIsRecordedOrUnexpected
  refine fun s n => ⟨fun ht hc => ⟨_, exec_edge n s, ?_⟩, fun hun => ?_⟩
  · obtain ⟨hdeltas, hcount⟩ := captureEdge_buffer n ht hc
    dsimp only
    rw [hdeltas, hcount]
    refine ⟨readDelta_putDelta_self .., fun _ hj => readDelta_putDelta_lt _ _ hj, length_putDelta ..,
      count_succ_toNat s hc, rfl, fun hfills => ?_, fun hroom => ?_⟩
    · rw [captureEdge_of_expected n ht hc, if_pos hfills]
      rfl
    · rw [captureEdge_of_expected n ht hc, if_neg hroom]
      rfl
  · rw [exec_edge, captureEdge_of_unexpected n hun]
    rfl

end Sys2Proof.Machine

/-! # The commands of the protocol state machine (41_psm.md R120 to R130) -/

namespace Sys2Proof.Machine

/-! ## The next-state function (R120) -/

section

variable {s : State}

/-- Finished and Error are left by cleanup only. -/
theorem nextState_of_final (hs : s.state = .finished ∨ s.state = .error) : s.nextState = s.state := by
  rcases hs with hs | hs <;> rw [State.nextState, hs, nextPsm]

/-- In Idle an error comes before a trigger. -/
theorem nextState_of_idle_error (hs : s.state = .idle) (he : s.error = true) : s.nextState = .error := by
  rw [State.nextState, hs, he]
  rfl

/-- Responding waits while neither flag is set. -/
theorem nextState_of_responding_waiting (hs : s.state = .responding) (hf : s.finished = false)
    (he : s.error = false) : s.nextState = .responding := by
  rw [State.nextState, hs, hf, he]
  cases s.cfg.prio <;> rfl

/-- In Responding an error yields to `finished` under FINISHED_FIRST only. -/
theorem nextState_of_responding_error (hs : s.state = .responding) (he : s.error = true) :
    s.nextState = if s.finished = true ∧ s.cfg.prio = .finishedFirst then .finished else .error := by
  rw [State.nextState, hs, he]
  cases s.cfg.prio <;> cases s.finished <;> rfl

end

/-- Settles O16: each row is a branch of `nextPsm`. -/
theorem nextStateTable : Obligations.NextStateTable := by
  unfold Obligations.NextStateTable
  exact ⟨fun _ _ _ => rfl, fun _ _ => rfl, fun _ _ => rfl, fun _ _ => rfl, fun _ => rfl, fun _ => rfl,
    fun _ _ => rfl, fun _ => rfl, fun _ => rfl, fun _ _ _ _ => rfl, fun _ _ _ _ => rfl⟩

/-! ## ADVANCE, and the commands that leave the PSM state alone (R125 to R128) -/

section

variable {s : State}

/-- ADVANCE to a known state. -/
theorem exec_advance_of_nextState {p : PsmState} (h : s.nextState = p) :
    exec .advance s = .next { s with rej := false, state := p } := by
  subst h
  rfl

/-- ADVANCE where the next state is the present one. -/
theorem exec_advance_of_stays (h : s.nextState = s.state) : exec .advance s = .next { s with rej := false } :=
  exec_advance_of_nextState h

/-- TRIGGER in Idle with no trigger in flight. -/
theorem exec_trigger_of_idle (hs : s.state = .idle) (ht : s.triggered = false) :
    exec .trigger s = .next (startCycle s.timeUs (accept s)) :=
  congrArg Host.Outcome.next (if_pos ⟨hs, ht⟩)

/-- TRIGGER anywhere else is accepted and does nothing. -/
theorem exec_trigger_of_busy (hb : s.state ≠ .idle ∨ s.triggered = true) :
    exec .trigger s = .next (accept s) := by
  refine congrArg Host.Outcome.next (if_neg fun ⟨hs, ht⟩ => ?_)
  rcases hb with hne | ht'
  · exact hne hs
  · cases ht.symm.trans ht'

end

/-- Settles O14: NOP is `accept`. -/
theorem nopOnlyClearsRej : Obligations.NopOnlyClearsRej := by
  unfold Obligations.NopOnlyClearsRej
  exact ⟨fun _ => rfl, fun _ => rfl⟩

/-- Settles O15: the two branches of TRIGGER, the first of which keeps a pending error for ADVANCE to find. -/
theorem triggerStartsACycle : Obligations.TriggerStartsACycle := by
  unfold Obligations.TriggerStartsACycle
  refine ⟨fun _ => rfl, fun _ hs ht => exec_trigger_of_idle hs ht, fun _ hb => exec_trigger_of_busy hb,
    fun s hs ht he => ?_⟩
  have herror : (startCycle s.timeUs (accept s)).nextState = .error := nextState_of_idle_error hs he
  exact ⟨_, _, exec_trigger_of_idle hs ht, he, exec_advance_of_nextState herror, rfl⟩

/-- Settles O17: what `next` gives in each corner case, applied by `exec_advance_of_nextState`. -/
theorem advanceAppliesNextOnce : Obligations.AdvanceAppliesNextOnce := by
  unfold Obligations.AdvanceAppliesNextOnce
  refine ⟨fun _ => rfl, fun _ => rfl, fun _ hs => exec_advance_of_stays (nextState_of_final hs),
    fun s hs hf he => ?_, fun s hs hf he => exec_advance_of_nextState ?_⟩
  · exact exec_advance_of_stays ((nextState_of_responding_waiting hs hf he).trans hs.symm)
  · rw [nextState_of_responding_error hs he, hf]
    cases s.cfg.prio <;> rfl

/-! ## Cleanup (R122, R129) -/

/-- What cleanup leaves: Idle, no flag, an empty buffer. -/
structure Cleaned (s : State) : Prop where
  state : s.state = .idle
  triggered : s.triggered = false
  finished : s.finished = false
  error : s.error = false
  count : s.count = 0
  deltas : s.deltas = []

theorem cleaned_cleanup (s : State) : Cleaned (cleanup s) := ⟨rfl, rfl, rfl, rfl, rfl, rfl⟩

theorem cleaned_hwReset (s : State) : Cleaned (hwReset s) := ⟨rfl, rfl, rfl, rfl, rfl, rfl⟩

/-- Whatever its checksum, a decode ends with cleanup. -/
theorem cleaned_decodeBody (s : State) : Cleaned (decodeBody s) := by
  rcases decodeBody_cases s with ⟨_, e⟩ | ⟨_, e⟩ <;> rw [e] <;> exact cleaned_cleanup _

/-- A cleaned block is left as it is. -/
theorem Cleaned.cleanup_eq {s : State} (h : Cleaned s) : cleanup s = s := by
  obtain ⟨hstate, htriggered, hfinished, herror, hcount, hdeltas⟩ := h
  apply State.ext <;> simp [hstate, htriggered, hfinished, herror, hcount, hdeltas]

/-- An Idle block with all flags clear has an empty buffer too (10_state.md R33 (v)). -/
theorem StatedInv.cleaned {s : State} (hinv : StatedInv s) (hbuffer : bufferWf s = true) (hs : s.state = .idle)
    (ht : s.triggered = false) (hf : s.finished = false) (he : s.error = false) : Cleaned s := by
  obtain ⟨hcount, _⟩ := hinv.idle_empty hs ht
  have hlength : s.deltas.length = 0 := by simpa [bufferWf, hcount] using hbuffer
  exact ⟨hs, ht, hf, he, hcount, List.eq_nil_of_length_eq_zero hlength⟩

/-- Settles O20: RESET is `accept` and `cleanup`, and an edge finds no trigger after it. -/
theorem resetIsCleanupInEveryState : Obligations.ResetIsCleanupInEveryState := by
  unfold Obligations.ResetIsCleanupInEveryState
  refine ⟨fun _ => rfl, fun _ => rfl, fun s hinv hbuffer hs ht hf he => ?_, fun s t n h => ?_⟩
  · obtain ⟨hstate, htriggered, hfinished, herror, hcount, hdeltas⟩ := hinv.cleaned hbuffer hs ht hf he
    have haccept : Cleaned (accept s) := ⟨hstate, htriggered, hfinished, herror, hcount, hdeltas⟩
    exact congrArg Host.Outcome.next haccept.cleanup_eq
  · obtain rfl : cleanup (accept s) = t := Host.Outcome.next.inj h
    rw [exec_edge, captureEdge_of_unexpected n (.inl (cleanup_triggered _))]
    rfl

/-! ## HANDLE (R130) -/

section

variable {s : State}

/-- The advance inside HANDLE, to a known state. -/
theorem advancePsm_of_nextState {p : PsmState} (h : s.nextState = p) :
    advancePsm { accept s with hreq := false } = { s with rej := false, hreq := false, state := p } := by
  subst h
  rfl

/-- HANDLE that reaches Finished or Error ends with cleanup. -/
theorem exec_handle_cleaned (hn : s.nextState = .finished ∨ s.nextState = .error) {t : State}
    (h : exec .handle s = .next t) : Cleaned t := by
  rcases hn with hn | hn
  · cases h.symm.trans (execHandle_finished hn)
    exact cleaned_decodeBody _
  · cases h.symm.trans (execHandle_error hn)
    exact cleaned_cleanup _

end

/-- The decoder's body does not touch `hreq`. -/
@[simp] theorem decodeBody_hreq (s : State) : (decodeBody s).hreq = s.hreq := by
  rcases decodeBody_cases s with ⟨_, e⟩ | ⟨_, e⟩ <;> rw [e] <;> simp

/-- Settles O21: the three meanings of HANDLE by the state it advances to. -/
theorem handleAdvancesAndDispatches : Obligations.HandleAdvancesAndDispatches := by
  unfold Obligations.HandleAdvancesAndDispatches
  refine ⟨fun _ => rfl, fun s hn => ?_, fun s hn => execHandle_error hn, fun s hn => ?_, fun s hn => ?_,
    fun _ _ => rfl, fun s => ?_⟩
  · exact (execHandle_finished hn).trans (by rw [advancePsm_of_nextState hn]; rfl)
  · exact (execHandle_nothing (.inr hn)).trans (by rw [advancePsm_of_nextState hn])
  · exact (execHandle_nothing (.inl hn)).trans (by rw [advancePsm_of_nextState hn])
  · cases hn : s.nextState with
    | finished =>
      exact ⟨_, execHandle_finished hn, decodeBody_hreq _, decodeBody_rej _, .inl (cleaned_decodeBody _).state⟩
    | error => exact ⟨_, execHandle_error hn, rfl, rfl, .inl rfl⟩
    | idle => exact ⟨_, execHandle_nothing (.inl hn), rfl, rfl, .inl hn⟩
    | responding => exact ⟨_, execHandle_nothing (.inr hn), rfl, rfl, .inr hn⟩

/-- Settles O19: FORCE_ERROR is `accept` and `markError`, and from Responding the flag takes the PSM to Finished or
Error, at both of which HANDLE cleans up. -/
theorem forceErrorSetsOnlyTheFlag : Obligations.ForceErrorSetsOnlyTheFlag := by
  unfold Obligations.ForceErrorSetsOnlyTheFlag
  refine ⟨fun _ => rfl, fun _ => rfl, fun s t u ht hu => ?_, fun s t u hs ht hu => ?_⟩
  · obtain rfl : markError (accept s) = t := Host.Outcome.next.inj ht
    obtain rfl : advancePsm (accept (markError (accept s))) = u := Host.Outcome.next.inj hu
    exact ⟨fun hs => nextState_of_idle_error hs rfl,
      fun hs hf => (nextState_of_responding_error (s := markError (accept s)) hs rfl).trans (if_neg hf),
      fun hs => nextState_of_final hs⟩
  · obtain rfl : markError (accept s) = t := Host.Outcome.next.inj ht
    have hnext : (markError (accept s)).nextState = .finished ∨ (markError (accept s)).nextState = .error := by
      rw [nextState_of_responding_error (s := markError (accept s)) hs rfl]
      split
      · exact .inl rfl
      · exact .inr rfl
    obtain ⟨hstate, htriggered, hfinished, herror, hcount, _⟩ := exec_handle_cleaned hnext hu
    exact ⟨hstate, hcount, htriggered, hfinished, herror⟩

/-! ## A flag stays set until cleanup or hardware reset (R122) -/

/-- Every flag that is set in `s` is set in `t`. -/
structure KeepsFlags (s t : State) : Prop where
  triggered : s.triggered = true → t.triggered = true
  finished : s.finished = true → t.finished = true
  error : s.error = true → t.error = true

/-- An edge clears no flag. -/
theorem captureEdge_keepsFlags (n : Word) (s : State) : KeepsFlags s (captureEdge n s) := by
  rcases captureEdge_cases n s with ⟨_, _, e⟩ | ⟨_, _, e⟩ | ⟨_, e⟩ <;> rw [e]
  · exact ⟨id, id, id⟩
  · exact ⟨id, fun _ => rfl, id⟩
  · exact ⟨id, id, fun _ => rfl⟩

/-- An instruction ends with cleanup or clears no flag. -/
theorem Effect.cleaned_or_keepsFlags {i : Instr} {s t : State} (h : Effect i s t) : Cleaned t ∨ KeepsFlags s t := by
  cases h with
  | reset | handleError => exact .inl (cleaned_cleanup _)
  | decode | handleFinished => exact .inl (cleaned_decodeBody _)
  | startCycle => exact .inr ⟨fun _ => rfl, id, id⟩
  | forceError => exact .inr ⟨id, id, fun _ => rfl⟩
  | edge n =>
    obtain ⟨htriggered, hfinished, herror⟩ := captureEdge_keepsFlags n s
    exact .inr ⟨htriggered, hfinished, herror⟩
  | _ => exact .inr ⟨id, id, id⟩

/-- A step ends with cleanup or hardware reset, or clears no flag. -/
theorem step_cleaned_or_keepsFlags {s t : State} (h : step s = .next t) : Cleaned t ∨ KeepsFlags s t := by
  rcases step_cases h with ⟨_, rfl⟩ | ⟨e, rest, _, _, _, rfl⟩ | ⟨now, rest, _, rfl⟩ | ⟨now, rest, _, _, rfl⟩ |
    ⟨e, rest, i, _, _, _, hx⟩
  · exact .inr ⟨id, id, id⟩
  · obtain ⟨d, hd⟩ := eventUnderRst_eq e (takeEvent e rest s)
    rw [hd]
    exact .inr ⟨id, id, id⟩
  · exact .inl (cleaned_hwReset _)
  · exact .inr ⟨id, id, id⟩
  · refine (exec_effect hx).cleaned_or_keepsFlags.imp_right fun ⟨htriggered, hfinished, herror⟩ => ?_
    exact ⟨htriggered, hfinished, herror⟩

/-- Settles O45: a step that drops a flag does not keep the flags, so it cleans up. -/
theorem flagsFallOnlyTogether : Obligations.FlagsFallOnlyTogether := by
  unfold Obligations.FlagsFallOnlyTogether
  refine ⟨fun s => ⟨_, rfl, rfl, rfl, rfl⟩, fun s t h hdrop => ?_⟩
  rcases step_cleaned_or_keepsFlags h with hclean | hkeeps
  · exact ⟨hclean.state, hclean.triggered, hclean.finished, hclean.error, hclean.count, hclean.deltas⟩
  · rcases hdrop with ⟨hs, ht⟩ | ⟨hs, ht⟩ | ⟨hs, ht⟩
    · cases (hkeeps.triggered hs).symm.trans ht
    · cases (hkeeps.finished hs).symm.trans ht
    · cases (hkeeps.error hs).symm.trans ht

end Sys2Proof.Machine

/-! # The decoder (42_decoder.md R160 to R165) -/

namespace Sys2Proof.Machine

/-! ## Bits to bytes (R161, R162) -/

/-- A bit put behind a word doubles it and adds the bit. -/
theorem toNat_append_ofBool {w : Nat} (x : BitVec w) (b : Bool) :
    (x ++ BitVec.ofBool b).toNat = x.toNat * 2 + b.toNat := by
  rw [BitVec.toNat_append, BitVec.toNat_ofBool, ← Nat.shiftLeft_add_eq_or_of_lt b.toNat_lt, Nat.shiftLeft_eq]

/-- An assembled byte is its eight bits at the weights 128 down to 1. -/
theorem toNat_assembleByte (bit : Nat → Bool) (j : Nat) :
    (assembleByte bit j).toNat = ∑ i ∈ Finset.range 8, (bit (8 * j + i)).toNat * 2 ^ (7 - i) := by
  simp only [assembleByte, toNat_append_ofBool, BitVec.toNat_ofBool, Finset.sum_range_succ, Finset.sum_range_zero,
    Nat.add_zero]
  omega

/-- Bit `k` of the stream is the unsigned, strict comparison of its HIGH duration with T. -/
theorem streamBit_eq_decide (c : Config) (ds : List Word) (k : Nat) :
    streamBit c ds k = decide (c.threshold.toNat < (readDelta ds (preambleCount c + 2 * k + 1)).toNat) := rfl

/-- The five bytes are assembled alike. -/
theorem getElem_decodeBytes (c : Config) (ds : List Word) (j : Fin 5) :
    (decodeBytes c ds)[j] = assembleByte (streamBit c ds) j.val := by
  fin_cases j <;> rfl

/-- Settles O28: a byte's bits at their weights, each the comparison `streamBit_eq_decide`. -/
theorem bytesAreTheStreamBits : Obligations.BytesAreTheStreamBits := by
  unfold Obligations.BytesAreTheStreamBits
  intro c ds j
  rw [getElem_decodeBytes, toNat_assembleByte]
  refine Finset.sum_congr rfl fun i _ => ?_
  rw [streamBit_eq_decide, Bool.toNat, Bool.cond_decide, ite_mul, one_mul, zero_mul]

/-! ## Bytes to numbers (R163 to R165) -/

/-- Two bytes side by side are a big-endian number. -/
theorem toNat_append_byte (hi lo : Byte) : (hi ++ lo).toNat = hi.toNat * 256 + lo.toNat := by
  rw [BitVec.toNat_append, ← Nat.shiftLeft_add_eq_or_of_lt lo.isLt, Nat.shiftLeft_eq]

/-- Humidity as a number. -/
theorem toNat_humidity (bs : Vector Byte 5) : (humidity bs).toNat = bs[0].toNat * 256 + bs[1].toNat :=
  toNat_append_byte _ _

/-- The magnitude is the low 15 bits of the two bytes. -/
theorem toNat_temperatureMagnitude (hi lo : Byte) :
    (temperatureMagnitude hi lo).toNat = hi.toNat % 128 * 256 + lo.toNat := by
  rw [temperatureMagnitude, toNat_append_byte, BitVec.toNat_and]
  exact congrArg (· * 256 + lo.toNat) (Nat.and_two_pow_sub_one_eq_mod hi.toNat 7)

/-- The magnitude fits 15 bits. -/
theorem temperatureMagnitude_lt (hi lo : Byte) : (temperatureMagnitude hi lo).toNat < 32768 := by
  have hlo := lo.isLt
  rw [toNat_temperatureMagnitude]
  omega

/-- Read as two's complement the magnitude is itself. -/
theorem toInt_temperatureMagnitude (hi lo : Byte) :
    (temperatureMagnitude hi lo).toInt = (hi.toNat % 128 * 256 + lo.toNat : Nat) := by
  have hlt := temperatureMagnitude_lt hi lo
  rw [BitVec.toInt_eq_toNat_of_lt (by omega), toNat_temperatureMagnitude]

/-- Its negation does not overflow, since it is not -32768. -/
theorem toInt_neg_temperatureMagnitude (hi lo : Byte) :
    (-temperatureMagnitude hi lo).toInt = -(hi.toNat % 128 * 256 + lo.toNat : Nat) := by
  have hne : temperatureMagnitude hi lo ≠ BitVec.intMin 16 := fun h =>
    (temperatureMagnitude_lt hi lo).ne (congrArg BitVec.toNat h)
  rw [BitVec.toInt_neg_of_ne_intMin hne, toInt_temperatureMagnitude]

/-- The temperature as a number. -/
theorem toInt_temperature (bs : Vector Byte 5) :
    (temperature bs).toInt =
      if bs[2].getLsbD 7 then -((bs[2].toNat % 128 * 256 + bs[3].toNat : Nat) : Int)
      else (bs[2].toNat % 128 * 256 + bs[3].toNat : Nat) := by
  rw [temperature, apply_ite BitVec.toInt, toInt_neg_temperatureMagnitude, toInt_temperatureMagnitude]

/-- The sign bit of the high byte, by the byte's value. -/
theorem getLsbD_seven_eq_decide (b : Byte) : b.getLsbD 7 = decide (128 ≤ b.toNat) :=
  (BitVec.msb_eq_getLsbD_last b).symm.trans (BitVec.msb_eq_decide b)

/-- The temperature lies between -32767 and 32767. -/
theorem toInt_temperature_bounds (bs : Vector Byte 5) :
    -32767 ≤ (temperature bs).toInt ∧ (temperature bs).toInt ≤ 32767 := by
  have hlo := bs[3].isLt
  rw [toInt_temperature]
  split <;> omega

/-- The checksum test as an equation (R163). -/
theorem checksumOk_iff (bs : Vector Byte 5) :
    checksumOk bs = true ↔ (bs[0].toNat + bs[1].toNat + bs[2].toNat + bs[3].toNat) % 256 = bs[4].toNat :=
  beq_iff_eq

/-! ## DECODE (R160) -/

section

variable {s : State}

/-- DECODE outside Finished is rejected. -/
theorem exec_decode_rejected (hs : s.state ≠ .finished) : exec .decode s = .next (reject s) :=
  congrArg Host.Outcome.next (if_neg hs)

/-- DECODE in Finished is the decoder's body. -/
theorem exec_decode_of_finished (hs : s.state = .finished) : exec .decode s = .next (decodeBody (accept s)) :=
  congrArg Host.Outcome.next (if_pos hs)

/-- DECODE of bytes that pass the checksum. -/
theorem exec_decode_of_checksumOk (hs : s.state = .finished) (hok : checksumOk (decodeBytes s.cfg s.deltas) = true) :
    exec .decode s =
      .next (cleanup (storeReading { accept s with bytes := decodeBytes s.cfg s.deltas })) := by
  rw [exec_decode_of_finished hs]
  rcases decodeBody_cases (accept s) with ⟨_, e⟩ | ⟨hbad, _⟩
  · rw [e]
    rfl
  · cases hok.symm.trans hbad

/-- DECODE of bytes that fail it. -/
theorem exec_decode_of_not_checksumOk (hs : s.state = .finished)
    (hbad : checksumOk (decodeBytes s.cfg s.deltas) = false) :
    exec .decode s =
      .next (cleanup (raiseChecksum { accept s with bytes := decodeBytes s.cfg s.deltas })) := by
  rw [exec_decode_of_finished hs]
  rcases decodeBody_cases (accept s) with ⟨hok, _⟩ | ⟨_, e⟩
  · cases hbad.symm.trans hok
  · rw [e]
    rfl

/-- A decode that passes leaves the Reading of the bytes it leaves. -/
theorem exec_decode_reading {t : State} (hs : s.state = .finished) (h : exec .decode s = .next t)
    (hdok : t.dok = true) : t.hum = humidity t.bytes ∧ t.temp = temperature t.bytes := by
  cases hc : checksumOk (decodeBytes s.cfg s.deltas) with
  | true =>
    cases h.symm.trans (exec_decode_of_checksumOk hs hc)
    exact ⟨rfl, rfl⟩
  | false =>
    cases h.symm.trans (exec_decode_of_not_checksumOk hs hc)
    cases hdok

end

/-- Settles O31: the Reading is `humidity` of the bytes. -/
theorem humidityIsBigEndian : Obligations.HumidityIsBigEndian := by
  unfold Obligations.HumidityIsBigEndian
  intro s t hs h hdok
  obtain ⟨hhum, _⟩ := exec_decode_reading hs h hdok
  rw [hhum, toNat_humidity]

/-- Settles O32: the Reading is `temperature` of the bytes, whose value is `toInt_temperature`. -/
theorem temperatureIsSignMagnitude : Obligations.TemperatureIsSignMagnitude := by
  unfold Obligations.TemperatureIsSignMagnitude
  intro s t hs h hdok
  obtain ⟨_, htemp⟩ := exec_decode_reading hs h hdok
  rw [htemp]
  obtain ⟨hmin, hmax⟩ := toInt_temperature_bounds t.bytes
  refine ⟨fun hsign => ?_, fun hsign => ?_, hmin, hmax, fun heq => ?_, fun hhi hlo => ?_, fun hhi hlo => ?_⟩
  · rw [toInt_temperature, hsign, if_neg Bool.false_ne_true]
  · rw [toInt_temperature, hsign, if_pos rfl]
  · rw [heq] at hmin
    exact absurd hmin (by decide)
  · rw [temperature, hhi, hlo]
    rfl
  · rw [temperature, hhi, hlo]
    rfl

/-- Settles O22: the two outcomes of DECODE in Finished by `checksumOk_iff`, with the numbers of the bytes; after either
the block is in Idle, where DECODE is rejected. -/
theorem decodeStoresOrFlags : Obligations.DecodeStoresOrFlags := by
  unfold Obligations.DecodeStoresOrFlags
  refine ⟨fun _ => rfl, fun _ hs => exec_decode_rejected hs, fun s hs => ?_, fun s t hs h => ?_⟩
  · refine ⟨decodeBytes s.cfg s.deltas, humidity (decodeBytes s.cfg s.deltas),
      temperature (decodeBytes s.cfg s.deltas), bytesAreTheStreamBits s.cfg s.deltas, toNat_humidity _,
      fun hpos => ?_, fun hneg => ?_, fun hok => ?_, fun hbad => ?_⟩
    · rw [toInt_temperature, getLsbD_seven_eq_decide, decide_eq_false (not_le.mpr hpos),
        if_neg Bool.false_ne_true, Nat.mod_eq_of_lt hpos]
    · have hmod : (decodeBytes s.cfg s.deltas)[2].toNat % 128 = (decodeBytes s.cfg s.deltas)[2].toNat - 128 := by
        omega
      rw [toInt_temperature, getLsbD_seven_eq_decide, decide_eq_true hneg, if_pos rfl, hmod]
    · exact exec_decode_of_checksumOk hs ((checksumOk_iff _).mpr hok)
    · exact exec_decode_of_not_checksumOk hs (Bool.eq_false_iff.mpr (mt (checksumOk_iff _).mp hbad))
  · obtain rfl : decodeBody (accept s) = t := Host.Outcome.next.inj ((exec_decode_of_finished hs).symm.trans h)
    refine exec_decode_rejected ?_
    rw [(cleaned_decodeBody _).state]
    decide

end Sys2Proof.Machine

/-! # Decoder and encoder (30_encoding.md) -/

namespace Sys2Proof

open Machine

/-! ## The command words (R80, R81) -/

/-- RSVD is 0 in the first sixteen words. -/
theorem cmdRsvd_eq_zero_iff (v : Word) : cmdRsvd v = 0 ↔ v.toNat < 16 := by
  rw [← BitVec.toNat_inj, cmdRsvd_toNat]
  change v.toNat / 16 = 0 ↔ v.toNat < 16
  omega

/-- Some row matches exactly when RSVD is 0. -/
theorem decodeCommand_isSome_iff (v : Word) : (decodeCommand v).isSome = true ↔ v.toNat < 16 := by
  simp only [decodeCommand, Option.isSome_map, List.find?_isSome, commandRows, List.exists_mem_cons_iff,
    matches_all, matches_reserved, ← BitVec.toNat_inj, BitVec.toNat_ofNat, List.not_mem_nil, false_and, exists_false,
    or_false]
  omega

/-- A row that fixes every bit shares no word with another that does not match its pattern. -/
theorem disjoint_all_iff (p : Word) (f : Word → Instr) (r : CommandRow) :
    (∀ v, ¬(CommandRow.matches ⟨0xFFFFFFFF#32, p, f⟩ v = true ∧ r.matches v = true)) ↔ r.matches p = false := by
  simp [matches_all]

/-- Settles O3: every row but the last fixes every bit, so each pair is disjoint when no later row matches a pattern. -/
theorem commandRowsCoverRsvdZeroOnce : Obligations.CommandRowsCoverRsvdZeroOnce := by
  unfold Obligations.CommandRowsCoverRsvdZeroOnce
  refine ⟨decodeCommand_isSome_iff, ?_⟩
  simp only [commandRows, List.pairwise_cons, List.forall_mem_cons, disjoint_all_iff]
  decide

/-- Decoding a command word inverts encoding a command. -/
theorem decodeCommand_eq_some_iff (v : Word) (i : Instr) : decodeCommand v = some i ↔ encodeCommand i = some v := by
  constructor
  · intro h
    have hv : v.toNat < 16 := (decodeCommand_isSome_iff v).mp (by rw [h]; rfl)
    obtain ⟨n, rfl⟩ : ∃ n : Fin 16, v = BitVec.ofNat 32 n.val := ⟨⟨v.toNat, hv⟩, by simp⟩
    fin_cases n <;> cases h <;> rfl
  · intro h
    cases i with
    | reservedOp8F low => cases h; exact decodeCommand_reserved low
    | edge | busRead | busWrite => cases h
    | _ => cases h; rfl

/-! ## The events of the instructions -/

section

variable {i : Instr} {v : Word}

/-- A command is well formed. -/
theorem wf_of_encodeCommand (h : encodeCommand i = some v) : i.wf = true := by
  cases i with
  | edge | busRead | busWrite => cases h
  | _ => rfl

/-- A command is carried by the CMD write of its word. -/
theorem encode_of_encodeCommand (now : Word) (h : encodeCommand i = some v) :
    encode now i = .busWrite now cmdOffset 4 v := by
  cases i with
  | edge | busRead | busWrite => cases h
  | _ => cases h; rfl

/-- The CMD write of a command's word decodes to the command. -/
theorem decode_cmdWrite (now : Word) (h : decodeCommand v = some i) :
    decode (.busWrite now cmdOffset 4 v) = .ok i := by
  have hdecode : decode (.busWrite now cmdOffset 4 v) =
    .ok ((decodeCommand v).getD (.busWrite cmdOffset 4 v)) := rfl
  rw [hdecode, h, Option.getD_some]

end

section

variable {addr : Offset} {bytes : Nat}

theorem eq_four_of_wordAccess (h : wordAccess addr bytes = true) : bytes = 4 := by
  rw [wordAccess_eq_aligned32] at h
  exact ((aligned32_iff addr bytes).mp h).1

/-- `spellsCommand` says that the write is one of a command row to CMD. -/
theorem spellsCommand_eq_false_iff (addr : Offset) (v : Word) :
    spellsCommand addr v = false ↔ (addr = cmdOffset → decodeCommand v = none) := by
  have hnone : decodeCommand v = none ↔ ¬cmdRsvd v = 0 := by
    rw [← Option.not_isSome_iff_eq_none, decodeCommand_isSome_iff, cmdRsvd_eq_zero_iff]
  rw [hnone]
  simp [spellsCommand, cmdRsvd]

/-- A read with no bus error decodes to itself. -/
theorem decode_busRead (now : Word) (h : wordAccess addr bytes = true) :
    decode (.busRead now addr bytes) = .ok (.busRead addr bytes) := if_pos h

/-- A write with no bus error that spells no command decodes to itself. -/
theorem decode_busWrite (now : Word) {v : Word} (h : wordAccess addr bytes = true)
    (hspells : spellsCommand addr v = false) :
    decode (.busWrite now addr bytes v) = .ok (.busWrite addr bytes v) := by
  rw [decode, if_pos h]
  split
  · next h0 => rw [(spellsCommand_eq_false_iff addr v).mp hspells (eq_of_beq h0), Option.getD_none]
  · rfl

end

/-- Settles O1: a command comes back from its word, the other formats carry their operands as they are. -/
theorem decodeOfEncodeIsTheInstruction : Obligations.DecodeOfEncodeIsTheInstruction := by
  unfold Obligations.DecodeOfEncodeIsTheInstruction
  intro now i hwf
  cases hc : encodeCommand i with
  | some v =>
    rw [encode_of_encodeCommand now hc]
    exact decode_cmdWrite now ((decodeCommand_eq_some_iff v i).mpr hc)
  | none =>
    cases i with
    | edge t => rfl
    | busRead addr bytes => exact decode_busRead now hwf
    | busWrite addr bytes v =>
      rw [Instr.wf, Bool.and_eq_true, Bool.not_eq_true'] at hwf
      exact decode_busWrite now hwf.1 hwf.2
    | _ => cases hc

/-- What a bus write decodes to: the command it spells, or itself. -/
theorem decode_busWrite_cases {now : Word} {addr : Offset} {bytes : Nat} {v : Word} {i : Instr}
    (h : decode (.busWrite now addr bytes v) = .ok i) :
    wordAccess addr bytes = true ∧
      ((addr = cmdOffset ∧ decodeCommand v = some i) ∨
        (spellsCommand addr v = false ∧ i = .busWrite addr bytes v)) := by
  rw [decode] at h
  split at h
  · next ha =>
    refine ⟨ha, ?_⟩
    split at h
    · next h0 =>
      cases hc : decodeCommand v with
      | some j => rw [hc] at h; cases h; exact .inl ⟨eq_of_beq h0, rfl⟩
      | none => rw [hc] at h; cases h; exact .inr ⟨(spellsCommand_eq_false_iff addr v).mpr fun _ => hc, rfl⟩
    · next h0 =>
      cases h
      exact .inr ⟨(spellsCommand_eq_false_iff addr v).mpr fun h => absurd (beq_iff_eq.mpr h) h0, rfl⟩
  · cases h

/-- Settles O2: each format is read back as it was, a CMD write by `decodeCommand_eq_some_iff`. -/
theorem encodeOfDecodeIsTheEvent : Obligations.EncodeOfDecodeIsTheEvent := by
  unfold Obligations.EncodeOfDecodeIsTheEvent
  intro e i h
  cases e with
  | edge t => cases h; exact ⟨rfl, rfl⟩
  | busRead now addr bytes =>
    rw [decode] at h
    split at h
    · next ha => cases h; exact ⟨ha, rfl⟩
    · cases h
  | busWrite now addr bytes v =>
    obtain ⟨ha, ⟨rfl, hc⟩ | ⟨hspells, rfl⟩⟩ := decode_busWrite_cases h
    · obtain rfl := eq_four_of_wordAccess ha
      have hencode := (decodeCommand_eq_some_iff v i).mp hc
      exact ⟨wf_of_encodeCommand hencode, encode_of_encodeCommand now hencode⟩
    · exact ⟨by rw [Instr.wf, ha, hspells]; rfl, rfl⟩
  | rstAssert => cases h
  | hwreset => cases h

/-- Settles O4: each word is decoded by the table. -/
theorem tableWordsDecode : Obligations.TableWordsDecode := by
  unfold Obligations.TableWordsDecode
  exact fun _ => ⟨rfl, rfl, rfl, rfl, rfl, rfl, rfl, rfl, rfl, rfl, rfl, rfl, rfl, rfl, rfl⟩

/-- Settles O5: each command's word selects the command's branch of `performCommand`, or is rejected as the reserved
opcodes are. -/
theorem cmdWritePerformsItsCommand : Obligations.CmdWritePerformsItsCommand := by
  unfold Obligations.CmdWritePerformsItsCommand
  intro v i s h
  rw [exec_busWrite_cmd]
  have hencode := (decodeCommand_eq_some_iff v i).mp h
  have hreserved (hop : 7 ≤ v.toNat % 16) : performCommand v s = .next (reject s) :=
    performCommand_of_rejected ((cmdRejected_iff v s).mpr (.inr (.inl hop)))
  cases i with
  | edge | busRead | busWrite => cases hencode
  | decode =>
    cases hencode
    by_cases hs : s.state = .finished
    · simp [performCommand, cmdRsvd, cmdOp, exec, hs]
    · rw [exec_decode_rejected hs]
      exact performCommand_of_rejected ((cmdRejected_iff _ s).mpr (.inr (.inr ⟨rfl, hs⟩)))
  | reservedOp7 => cases hencode; exact hreserved (by decide)
  | reservedOp8F low =>
    have hop : ∀ low : BitVec 3, 7 ≤ (0b00000000000000000000000000001#29 ++ low).toNat % 16 := by decide
    cases hencode
    exact hreserved (hop low)
  | _ => cases hencode; rfl

end Sys2Proof

/-! # What a step runs (00_scope.md R7 to R11, 70_reset_and_hazards.md R231) -/

namespace Sys2Proof.Machine

/-- With `rst` released a step runs the instruction of its event. -/
theorem step_of_decode {s : State} {e : Event} {rest : List Event} {i : Instr} (hrst : s.rst = false)
    (he : s.events = e :: rest) (hd : decode e = .ok i) : step s = exec i (takeEvent e rest s) := by
  simp [step, he, hrst, hd]

/-- While `rst` is held a step only takes its event, unless that ends the reset. -/
theorem step_of_held {s : State} {e : Event} {rest : List Event} (hrst : s.rst = true) (he : s.events = e :: rest)
    (hend : endsReset e = false) : step s = .next (eventUnderRst e (takeEvent e rest s)) := by
  simp [step, he, hrst, hend]

/-- The end of a hardware reset acts whether `rst` is held or not. -/
theorem step_of_hwreset {s : State} {now : Word} {rest : List Event} (he : s.events = .hwreset now :: rest) :
    step s = .next (hwReset (takeEvent (.hwreset now) rest s)) := by
  simp [step, he, endsReset, decode]

/-- Settles O6. -/
theorem stepRunsTheDecodedInstruction : Obligations.StepRunsTheDecodedInstruction := by
  unfold Obligations.StepRunsTheDecodedInstruction
  intro s e rest i hrst he hd
  exact step_of_decode hrst he hd

/-- Settles O7: the first case of `step`. -/
theorem noEventNoChange : Obligations.NoEventNoChange := by
  unfold Obligations.NoEventNoChange
  intro s h
  simp only [step, h]

/-- Settles O13: what `eventUnderRst` gives for each event that does not end the reset. -/
theorem heldResetIgnoresEvents : Obligations.HeldResetIgnoresEvents := by
  unfold Obligations.HeldResetIgnoresEvents
  intro s e rest hrst he hne
  cases e with
  | hwreset now => exact absurd rfl (hne now)
  | busRead now addr bytes => exact ⟨some 0, step_of_held hrst he rfl, fun _ _ _ _ => rfl⟩
  | edge | busWrite | rstAssert => exact ⟨none, step_of_held hrst he rfl, fun _ _ _ h => by cases h⟩

/-- A step is the end of a hardware reset, runs an instruction, or changes the inputs and the bus data at most. -/
theorem step_kinds {s t : State} (h : step s = .next t) :
    (∃ now rest, s.events = .hwreset now :: rest ∧ t = hwReset (takeEvent (.hwreset now) rest s)) ∨
      (∃ e rest i, s.events = e :: rest ∧ decode e = .ok i ∧ exec i (takeEvent e rest s) = .next t) ∨
      (∃ rst timeUs events busData,
        t = { s with rst := rst, timeUs := timeUs, events := events, busData := busData }) := by
  rcases step_cases h with ⟨_, rfl⟩ | ⟨e, rest, _, _, _, rfl⟩ | ⟨now, rest, he, rfl⟩ | ⟨now, rest, _, _, rfl⟩ |
    ⟨e, rest, i, he, _, hd, hx⟩
  · exact .inr (.inr ⟨_, _, _, _, rfl⟩)
  · obtain ⟨d, hd⟩ := eventUnderRst_eq e (takeEvent e rest s)
    exact .inr (.inr ⟨_, _, _, _, hd⟩)
  · exact .inl ⟨now, rest, he, rfl⟩
  · exact .inr (.inr ⟨_, _, _, _, rfl⟩)
  · exact .inr (.inl ⟨e, rest, i, he, hd, hx⟩)

/-! ## Table words (log 6, log 7) -/

/-- The same arrival at another time; an edge is its time and stays. -/
def resample (now : Word) : Event → Event
  | .edge t => .edge t
  | .busRead _ addr bytes => .busRead now addr bytes
  | .busWrite _ addr bytes v => .busWrite now addr bytes v
  | .rstAssert _ => .rstAssert now
  | .hwreset _ => .hwreset now

/-- The decoder does not look at the time of a bus access. -/
theorem decode_resample (now : Word) (e : Event) : decode (resample now e) = decode e := by
  cases e with
  | edge | busRead | busWrite => rfl
  | rstAssert | hwreset => rfl

/-- The time given to `tableEvent` goes into the event and nowhere else. -/
theorem tableEvent_eq_map_resample (now : Word) (nbits w : Nat) :
    tableEvent now nbits w = (tableEvent 0#32 nbits w).map (resample now) := by
  unfold tableEvent
  split
  · split <;> rfl
  · split
    · split
      · split <;> rfl
      · rfl
    · rfl

/-- The event of a table word that decodes, at any time. -/
theorem tableEvent_of_decodeTableWord {nbits w : Nat} {i : Instr} (h : decodeTableWord nbits w = some i)
    (now : Word) : ∃ e, tableEvent now nbits w = some e ∧ decode e = .ok i := by
  rw [tableEvent_eq_map_resample]
  unfold decodeTableWord at h
  cases htable : tableEvent 0#32 nbits w with
  | none => rw [htable] at h; cases h
  | some e =>
    rw [htable] at h
    refine ⟨resample now e, rfl, (decode_resample now e).trans ?_⟩
    change (decode e).toOption = some i at h
    cases hd : decode e with
    | error => rw [hd] at h; cases h
    | ok j => rw [hd] at h; cases h; rfl

/-- Settles O8: the placed event decodes to the table word's instruction, at whatever time the state holds. -/
theorem placedTableWordRunsNext : Obligations.PlacedTableWordRunsNext := by
  unfold Obligations.PlacedTableWordRunsNext
  intro s nbits w i h
  obtain ⟨e, htable, hd⟩ := tableEvent_of_decodeTableWord h s.timeUs
  have hplaced : s.withFetchWord nbits w = { s with events := e :: s.events, rst := false } := by
    simp [State.withFetchWord, placeTableWord, htable]
  rw [hplaced]
  exact ⟨e.time, step_of_decode rfl rfl hd⟩

/-! ## Completion (20_memory.md R52, 60_exceptions.md R206) -/

/-- A write to CMD always completes. -/
theorem exec_busWrite_cmd_completes (v : Word) (s : State) : ∃ t, exec (.busWrite cmdOffset 4 v) s = .next t := by
  obtain ⟨t, ht, _⟩ := performCommand_effect v s
  exact ⟨t, (exec_busWrite_cmd s v).trans ht⟩

section

variable {addr : Offset} {bytes : Nat} (h : bytes = 4 ∧ addr.toNat % 4 = 0) (s : State)
include h

/-- An aligned 32-bit read completes. -/
theorem exec_busRead_completes : ∃ t, exec (.busRead addr bytes) s = .next t := by
  obtain ⟨rfl, ha⟩ := h
  exact ⟨_, exec_busRead_of_eq ha rfl⟩

/-- An aligned 32-bit write completes. -/
theorem exec_busWrite_completes (v : Word) : ∃ t, exec (.busWrite addr bytes v) s = .next t := by
  obtain ⟨rfl, ha⟩ := h
  by_cases h0 : addr = cmdOffset
  · subst h0
    exact exec_busWrite_cmd_completes v s
  · exact ⟨s, exec_busWrite_of_ne_cmd s v ha h0⟩

end

/-- If `i` is a bus access, it is aligned and 32 bits wide. -/
def AccessAligned (i : Instr) : Prop :=
  ∀ addr bytes, (i = .busRead addr bytes ∨ ∃ v, i = .busWrite addr bytes v) → bytes = 4 ∧ addr.toNat % 4 = 0

/-- An instruction completes, unless it is an access that is misaligned or not 32 bits wide. -/
theorem exec_completes {i : Instr} (h : AccessAligned i) (s : State) : ∃ t, exec i s = .next t := by
  cases i with
  | busRead addr bytes => exact exec_busRead_completes (h addr bytes (.inl rfl)) s
  | busWrite addr bytes v => exact exec_busWrite_completes (h addr bytes (.inr ⟨v, rfl⟩)) s v
  | handle =>
    obtain ⟨t, ht, _⟩ := execHandle_effect (i := .handle) (s := s) (.inl rfl)
    exact ⟨t, ht⟩
  | _ => exact ⟨_, rfl⟩

theorem accessAligned_of_wf {i : Instr} (hwf : i.wf = true) : AccessAligned i := by
  intro addr bytes h
  rw [← aligned32_iff, ← wordAccess_eq_aligned32]
  rcases h with rfl | ⟨v, rfl⟩
  · exact hwf
  · rw [Instr.wf, Bool.and_eq_true] at hwf
    exact hwf.1

/-- Settles O10: `exec_completes` for every term but the accesses of R52, which are bus errors. -/
theorem wellFormedInstructionsComplete : Obligations.WellFormedInstructionsComplete := by
  unfold Obligations.WellFormedInstructionsComplete
  refine ⟨fun i s hwf => exec_completes (accessAligned_of_wf hwf) s, fun i s => ?_, exec_busWrite_cmd_completes⟩
  by_cases hi : AccessAligned i
  · exact .inl (exec_completes hi s)
  · obtain ⟨addr, bytes, haccess, hbad⟩ : ∃ addr bytes,
        (i = .busRead addr bytes ∨ ∃ v, i = .busWrite addr bytes v) ∧ ¬(bytes = 4 ∧ addr.toNat % 4 = 0) := by
      simpa only [AccessAligned, not_forall, exists_prop] using hi
    refine .inr ⟨addr, bytes, haccess, hbad, ?_⟩
    rcases haccess with rfl | ⟨v, rfl⟩
    · exact exec_busRead_busError hbad s
    · exact exec_busWrite_busError hbad v s

end Sys2Proof.Machine

/-! # The register window after an operation (20_memory.md R50, R53, R55) -/

namespace Sys2Proof.Machine

/-! ## What a register is read from -/

/-- DELTA[i] reads alike in both states. -/
def SameDelta (s t : State) (i : Nat) : Prop :=
  (if i < t.count.toNat then readDelta t.deltas i else 0) = if i < s.count.toNat then readDelta s.deltas i else 0

/-- The registers that no edge and no flag changes are read from the build, the bytes and the Reading. -/
structure SameData (s t : State) : Prop where
  cfg : t.cfg = s.cfg
  bytes : t.bytes = s.bytes
  temp : t.temp = s.temp
  hum : t.hum = s.hum

/-- Two states with the same data read alike at an offset where STATUS, COUNT, LAST_EDGE and the DELTA registers do. -/
theorem readRegister_congr {s t : State} {addr : Offset} (hdata : SameData s t)
    (hstatus : addr = 0x004#11 → t.statusWord = s.statusWord) (hcount : addr = 0x008#11 → t.count = s.count)
    (hlast : addr = 0x018#11 → t.lastEdge = s.lastEdge) (hdelta : ∀ i, deltaIndex? addr = some i → SameDelta s t i) :
    readRegister t addr = readRegister s addr := by
  obtain ⟨hcfg, hbytes, htemp, hhum⟩ := hdata
  unfold readRegister
  cases hi : deltaIndex? addr with
  | some i => exact hdelta i hi
  | none =>
    simp only [hcfg, hbytes, htemp, hhum]
    congr 1
    refine ite_congr rfl hstatus fun _ => ite_congr rfl (fun h => ?_) fun _ => ?_
    · rw [hcount h]
    · exact ite_congr rfl (fun _ => rfl) fun _ => ite_congr rfl (fun _ => rfl) fun _ =>
        ite_congr rfl (fun _ => rfl) fun _ => ite_congr rfl hlast fun _ => rfl

/-! ## Hardware reset (70_reset_and_hazards.md R230) -/

/-- After a hardware reset every register but PARAM and THRESH reads 0. -/
theorem readRegister_hwReset (s : State) {addr : Offset} (hparam : addr ≠ 0x01C#11) (hthresh : addr ≠ 0x020#11) :
    readRegister (hwReset s) addr = 0 := by
  have hstatus : (hwReset s).statusWord = 0 := by
    change State.reset.statusWord = 0
    decide
  unfold readRegister
  cases deltaIndex? addr with
  | some i => exact if_neg (Nat.not_lt_zero i)
  | none => simp [hstatus, hparam, hthresh]

/-- Settles O11: the reset constant on any build is what a hardware reset leaves. -/
theorem resetConstantHoldsResetValues : Obligations.ResetConstantHoldsResetValues := by
  unfold Obligations.ResetConstantHoldsResetValues
  exact ⟨rfl, rfl, rfl, rfl, rfl, rfl, rfl, rfl, rfl, rfl, rfl, rfl, rfl, rfl, rfl, rfl,
    fun c _ hparam hthresh => readRegister_hwReset { State.reset with cfg := c } hparam hthresh⟩

/-- Settles O12: the step ends in `hwReset`, whose fields and registers are known; no step changes PARAM and THRESH. -/
theorem hardwareResetClearsEverything : Obligations.HardwareResetClearsEverything := by
  unfold Obligations.HardwareResetClearsEverything
  intro s now rest he
  obtain ⟨hcfg, hparam, hthresh⟩ := parametersNeverChange s _ (step_of_hwreset he)
  exact ⟨_, step_of_hwreset he, rfl, rfl, rfl, rfl, rfl, rfl, rfl, rfl, rfl, rfl, rfl, rfl, rfl, rfl, rfl, hcfg, rfl,
    rfl, rfl, fun _ h1 h2 => readRegister_hwReset _ h1 h2, hparam, hthresh⟩

/-! ## The edge -/

/-- A write at the position `i` changes no DELTA register but that of `i`. -/
theorem sameDelta_recordDelta (n : Word) {s : State} (hc : s.count.toNat < capacity s.cfg) {i : Nat}
    (hi : i ≠ s.count.toNat) : SameDelta s (recordDelta n s) i := by
  have hcount := count_succ_toNat s hc
  rw [SameDelta, recordDelta_count, recordDelta_deltas, hcount]
  by_cases hlt : i < s.count.toNat
  · rw [if_pos hlt, if_pos (by omega), readDelta_putDelta_lt _ _ hlt]
  · rw [if_neg hlt, if_neg (by omega)]

/-- An edge changes no data and no DELTA register but the one at the write position. -/
theorem captureEdge_frame (n : Word) (s : State) :
    SameData s (captureEdge n s) ∧ ∀ i, i ≠ s.count.toNat → SameDelta s (captureEdge n s) i := by
  rcases captureEdge_cases n s with ⟨_, hc, e⟩ | ⟨_, hc, e⟩ | ⟨_, e⟩ <;> rw [e]
  · exact ⟨⟨rfl, rfl, rfl, rfl⟩, fun i hi => sameDelta_recordDelta n (by omega) hi⟩
  · exact ⟨⟨rfl, rfl, rfl, rfl⟩, fun i hi => sameDelta_recordDelta n (by omega) hi⟩
  · exact ⟨⟨rfl, rfl, rfl, rfl⟩, fun i hi => rfl⟩

/-- Settles O26: `captureEdge_frame` at an offset of none of the four registers. -/
theorem edgeLeavesOtherRegisters : Obligations.EdgeLeavesOtherRegisters := by
  unfold Obligations.EdgeLeavesOtherRegisters
  intro s t n addr h hstatus hcount hlast hdelta
  obtain rfl : { captureEdge n s with lastEdge := n } = t := Host.Outcome.next.inj ((exec_edge n s).symm.trans h)
  obtain ⟨⟨hcfg, hbytes, htemp, hhum⟩, hframe⟩ := captureEdge_frame n s
  refine readRegister_congr ⟨hcfg, hbytes, htemp, hhum⟩ (absurd · hstatus) (absurd · hcount) (absurd · hlast)
    fun i hi => hframe i ?_
  rintro rfl
  exact hdelta hi

/-! ## Commands, reads and ignored writes -/

/-- A read that completes changes the bus data and nothing else. -/
theorem exec_busRead_next {addr : Offset} {bytes : Nat} {s t : State} (h : exec (.busRead addr bytes) s = .next t) :
    ∃ d, t = { s with busData := d } := by
  by_cases ha : bytes = 4 ∧ addr.toNat % 4 = 0
  · obtain ⟨rfl, ha⟩ := ha
    exact ⟨_, Host.Outcome.next.inj (h.symm.trans (exec_busRead_of_eq ha rfl))⟩
  · cases h.symm.trans (exec_busRead_busError ha s)

/-- A write that completes and is not to CMD changes nothing. -/
theorem exec_busWrite_next {addr : Offset} {bytes : Nat} {v : Word} {s t : State} (h0 : addr ≠ cmdOffset)
    (h : exec (.busWrite addr bytes v) s = .next t) : t = s := by
  by_cases ha : bytes = 4 ∧ addr.toNat % 4 = 0
  · obtain ⟨rfl, ha⟩ := ha
    exact Host.Outcome.next.inj (h.symm.trans (exec_busWrite_of_ne_cmd s v ha h0))
  · cases h.symm.trans (exec_busWrite_busError ha v s)

/-- A command that changes `rej`, `error` and the PSM state at most changes no register but STATUS. -/
theorem readRegister_of_flags (s : State) {addr : Offset} (hstatus : addr ≠ 0x004#11) (rej error : Bool)
    (p : PsmState) : readRegister { s with rej := rej, error := error, state := p } addr = readRegister s addr :=
  readRegister_congr ⟨rfl, rfl, rfl, rfl⟩ (absurd · hstatus) (fun _ => rfl) (fun _ => rfl) fun _ _ => rfl

/-- Settles O38: the five commands change `rej`, `error` and the PSM state at most, a read the bus data, and an ignored
write nothing. -/
theorem flagCommandsLeaveOtherRegisters : Obligations.FlagCommandsLeaveOtherRegisters := by
  unfold Obligations.FlagCommandsLeaveOtherRegisters
  refine fun s t i addr h => ⟨fun hi hstatus => ?_, fun hi => ?_⟩
  · rcases hi with rfl | rfl | rfl | rfl | ⟨low, rfl⟩ <;> cases h
    · exact readRegister_of_flags s hstatus false s.error s.state
    · exact readRegister_of_flags s hstatus false true s.state
    · exact readRegister_of_flags s hstatus false s.error s.nextState
    · exact readRegister_of_flags s hstatus true s.error s.state
    · exact readRegister_of_flags s hstatus true s.error s.state
  · rcases hi with ⟨a, n, rfl⟩ | ⟨a, n, v, rfl, h0⟩
    · obtain ⟨d, rfl⟩ := exec_busRead_next h
      rfl
    · rw [exec_busWrite_next h0 h]

/-! ## The window's place (R50; log 13) -/

/-- Settles O40: an offset is below 0x800, so it does not wrap. -/
theorem windowStandsAtEcbBase : Obligations.WindowStandsAtEcbBase := by
  unfold Obligations.WindowStandsAtEcbBase
  refine fun c => ⟨fun addr => ?_, fun a addr h => ?_, fun a => ?_⟩
  · have haddr := addr.isLt
    rw [windowOffset, systemAddress, if_pos (by omega), Nat.add_sub_cancel_left, BitVec.ofNat_toNat,
      BitVec.setWidth_eq]
  · rw [windowOffset, Option.ite_none_right_eq_some] at h
    obtain ⟨ha, h⟩ := h
    cases h
    rw [systemAddress, BitVec.toNat_ofNat, Nat.mod_eq_of_lt (by omega)]
    omega
  · rw [windowOffset, ite_eq_right_iff]
    simp only [reduceCtorEq, imp_false]
    omega

end Sys2Proof.Machine

/-! # Sequences of commands (41_psm.md R121, 20_memory.md R55, 60_exceptions.md R200, R208) -/

namespace Sys2Proof.Machine

section

variable {s : State}

/-- In Idle with no error a trigger leads to Responding. -/
theorem nextState_of_idle_triggered (hs : s.state = .idle) (ht : s.triggered = true) (he : s.error = false) :
    s.nextState = .responding := by
  rw [State.nextState, hs, ht, he]
  rfl

/-- In Responding with no error a full buffer leads to Finished, whatever PRIO is. -/
theorem nextState_of_responding_finished (hs : s.state = .responding) (hf : s.finished = true)
    (he : s.error = false) : s.nextState = .finished := by
  rw [State.nextState, hs, hf, he]
  cases s.cfg.prio <;> rfl

end

/-- Settles O18: each ADVANCE applies its row of the table. -/
theorem twoAdvancesFromIdleToFinished : Obligations.TwoAdvancesFromIdleToFinished := by
  unfold Obligations.TwoAdvancesFromIdleToFinished
  intro s hs ht hf he
  exact ⟨exec_advance_of_nextState (nextState_of_idle_triggered hs ht he),
    exec_advance_of_nextState (nextState_of_responding_finished rfl hf he)⟩

/-- After a TRIGGER another one finds a cycle in flight or no Idle state, and changes nothing. -/
theorem exec_trigger_twice {s t : State} (h : exec .trigger s = .next t) : exec .trigger t = .next t := by
  by_cases hidle : s.state = .idle ∧ s.triggered = false
  · obtain ⟨hs, ht⟩ := hidle
    obtain rfl : startCycle s.timeUs (accept s) = t := Host.Outcome.next.inj ((exec_trigger_of_idle hs ht).symm.trans h)
    exact exec_trigger_of_busy (.inr rfl)
  · have hbusy : s.state ≠ .idle ∨ s.triggered = true := by
      rwa [not_and_or, Bool.not_eq_false] at hidle
    obtain rfl : accept s = t := Host.Outcome.next.inj ((exec_trigger_of_busy hbusy).symm.trans h)
    exact exec_trigger_of_busy hbusy

/-- No DECODE leaves the block in Finished. -/
theorem exec_decode_state_ne {s t : State} (h : exec .decode s = .next t) : t.state ≠ .finished := by
  by_cases hs : s.state = .finished
  · obtain rfl : decodeBody (accept s) = t := Host.Outcome.next.inj ((exec_decode_of_finished hs).symm.trans h)
    rw [(cleaned_decodeBody _).state]
    decide
  · obtain rfl : reject s = t := Host.Outcome.next.inj ((exec_decode_rejected hs).symm.trans h)
    exact hs

/-- Settles O39: after a DECODE the block is not in Finished, where alone a DECODE is accepted. -/
theorem secondTriggerChangesNothing : Obligations.SecondTriggerChangesNothing := by
  unfold Obligations.SecondTriggerChangesNothing
  exact ⟨fun _ _ h => exec_trigger_twice h, fun _ _ h => exec_decode_rejected (exec_decode_state_ne h)⟩

/-- Settles O53: the edge is unexpected, and the error takes HANDLE from Idle to cleanup. -/
theorem handleRecoversFromAStrayEdge : Obligations.HandleRecoversFromAStrayEdge := by
  unfold Obligations.HandleRecoversFromAStrayEdge
  intro s t u n hs ht hedge hhandle
  rw [exec_edge, captureEdge_of_unexpected n (.inl ht)] at hedge
  obtain rfl : { raiseUnexpectedEdge s with lastEdge := n } = t := Host.Outcome.next.inj hedge
  refine ⟨rfl, rfl, rfl, ?_⟩
  cases hhandle.symm.trans (execHandle_error (nextState_of_idle_error hs rfl))
  apply State.ext
  case state => exact hs.symm
  case triggered => exact ht.symm
  all_goals rfl

/-- Settles O54: after RESET no flag is set, so HANDLE stays in Idle. -/
theorem requestSurvivesReset : Obligations.RequestSurvivesReset := by
  unfold Obligations.RequestSurvivesReset
  intro s t u hreset hhandle
  obtain rfl : cleanup (accept s) = t := Host.Outcome.next.inj hreset
  have hidle : (cleanup (accept s)).nextState = .idle := rfl
  cases hhandle.symm.trans (execHandle_nothing (.inl hidle))
  exact ⟨rfl, rfl⟩

section

variable {s : State} {now v : Word} {rest : List Event}

/-- A CMD write at the head of the events runs the command it spells. -/
theorem step_cmdWrite {i : Instr} (hrst : s.rst = false) (he : s.events = cmdWrite now v :: rest)
    (hv : decodeCommand v = some i) : step s = exec i (takeEvent (cmdWrite now v) rest s) :=
  step_of_decode hrst he (decode_cmdWrite now hv)

/-- A step of TRIGGER that starts a cycle. -/
theorem step_trigger (hrst : s.rst = false) (he : s.events = cmdWrite now 1#32 :: rest) (hs : s.state = .idle)
    (ht : s.triggered = false) : step s = .next (startCycle now (accept (takeEvent (cmdWrite now 1#32) rest s))) :=
  (step_cmdWrite hrst he rfl).trans (exec_trigger_of_idle hs ht)

/-- A step of ADVANCE to a known state. -/
theorem step_advance {p : PsmState} (hrst : s.rst = false) (he : s.events = cmdWrite now 2#32 :: rest)
    (hn : s.nextState = p) :
    step s = .next { takeEvent (cmdWrite now 2#32) rest s with rej := false, state := p } :=
  (step_cmdWrite hrst he rfl).trans (exec_advance_of_nextState hn)

end

/-- Settles O55: TRIGGER starts the cycle and ADVANCE goes on to Responding. -/
theorem armEntersResponding : Obligations.ArmEntersResponding := by
  unfold Obligations.ArmEntersResponding
  intro s now rest hrst hs ht he hev
  have htrigger := step_trigger hrst hev hs ht
  refine ⟨_, (run_succ (k := 1) htrigger).trans (run_succ (k := 0)
    (step_advance (now := now) (rest := rest) hrst rfl (nextState_of_idle_triggered hs rfl he))), ?_⟩
  exact ⟨rfl, rfl, rfl, rfl, rfl, rfl, rfl, rfl⟩

end Sys2Proof.Machine

/-! # The invariant (10_state.md R26 to R33, 42_decoder.md R165) -/

namespace Sys2Proof.Machine

/-! ## Its two halves, and the fields they speak of -/

/-- The half of `Inv` about the trigger cycle and its buffer. -/
structure CaptureInv (s : State) : Prop extends StatedInv s where
  buffer : bufferWf s = true

/-- The half of `Inv` about the bytes and the Reading. -/
structure ReadingInv (s : State) : Prop where
  oneOutcome : ¬(s.dok = true ∧ s.dcerr = true)
  dok_reading : s.dok = true →
    checksumOk s.bytes = true ∧ s.hum = humidity s.bytes ∧ s.temp = temperature s.bytes ∧ s.valid = true
  dcerr_bytes : s.dcerr = true → checksumOk s.bytes = false
  noReading : s.valid = false → s.temp = 0 ∧ s.hum = 0
  temp_range : s.temp ≠ 0x8000#16

theorem inv_iff (s : State) : Inv s ↔ CaptureInv s ∧ ReadingInv s :=
  ⟨fun h => ⟨⟨h.toStatedInv, h.buffer⟩, ⟨h.oneOutcome, h.dok_reading, h.dcerr_bytes, h.noReading, h.temp_range⟩⟩,
    fun ⟨hc, hr⟩ =>
      ⟨hc.toStatedInv, hc.buffer, hr.oneOutcome, hr.dok_reading, hr.dcerr_bytes, hr.noReading, hr.temp_range⟩⟩

/-- The fields `CaptureInv` speaks of. -/
def State.capture (s : State) : Config × PsmState × Bool × Bool × Half × List Word :=
  (s.cfg, s.state, s.triggered, s.finished, s.count, s.deltas)

/-- The fields `ReadingInv` speaks of. -/
def State.reading (s : State) : Vector Byte 5 × Half × Half × Bool × Bool × Bool :=
  (s.bytes, s.temp, s.hum, s.valid, s.dok, s.dcerr)

theorem CaptureInv.congr {s t : State} (h : CaptureInv s) (e : t.capture = s.capture) : CaptureInv t := by
  cases s
  cases t
  cases e
  exact ⟨⟨h.count_le, h.finished_full, h.stateFinished_full, h.responding_triggered, h.idle_empty⟩, h.buffer⟩

theorem ReadingInv.congr {s t : State} (h : ReadingInv s) (e : t.reading = s.reading) : ReadingInv t := by
  cases s
  cases t
  cases e
  exact ⟨h.oneOutcome, h.dok_reading, h.dcerr_bytes, h.noReading, h.temp_range⟩

/-! ## What keeps the first half -/

/-- What each state that the PSM moves to or stays in says of the state and the flags before. -/
theorem nextState_reached (s : State) :
    (s.nextState = .finished → s.state = .finished ∨ s.finished = true) ∧
      (s.nextState = .responding → s.state = .responding ∨ s.triggered = true) ∧
      (s.nextState = .idle → s.state = .idle) := by
  unfold State.nextState
  rcases nextPsm_cases s.cfg.prio s.state s.triggered s.finished s.error with hn | ⟨_, _, hn⟩ | ⟨_, _, ht, hn⟩ |
    ⟨_, hf, hn⟩ | ⟨_, _, hn⟩ <;> rw [hn]
  · exact ⟨.inl, .inl, id⟩
  · simp
  · simp [ht]
  · simp [hf]
  · simp

/-- A cleaned block satisfies it. -/
theorem Cleaned.captureInv {s : State} (h : Cleaned s) : CaptureInv s := by
  obtain ⟨hstate, htriggered, hfinished, _, hcount, hdeltas⟩ := h
  constructor
  · constructor <;> simp [hstate, hfinished, hcount]
  · rw [bufferWf_iff, hdeltas, hcount]
    rfl

section

variable {s : State} (h : CaptureInv s)
include h

/-- Moving the PSM: to Finished only with the buffer full, to Responding only with a trigger in flight. -/
theorem CaptureInv.advancePsm : CaptureInv (advancePsm s) := by
  obtain ⟨hfinished, hresponding, hidle⟩ := nextState_reached s
  refine ⟨⟨h.count_le, h.finished_full, fun hn => ?_, fun hn => ?_, fun hn => h.idle_empty (hidle hn)⟩, h.buffer⟩
  · rcases hfinished hn with hs | hf
    · exact h.stateFinished_full hs
    · exact (h.finished_full hf).2
  · rcases hresponding hn with hs | ht
    · exact h.responding_triggered hs
    · exact ht

/-- Starting a cycle in Idle, where `finished` is clear. -/
theorem CaptureInv.startCycle (now : Word) (hs : s.state = .idle) (ht : s.triggered = false) :
    CaptureInv (startCycle now s) := by
  obtain ⟨_, hfinished⟩ := h.idle_empty hs ht
  refine ⟨?_, bufferWf_startCycle now s⟩
  constructor <;> simp [hs, hfinished]

/-- Recording a delta in a buffer with room, which is not finished. -/
theorem CaptureInv.recordDelta (n : Word) (ht : s.triggered = true) (hc : s.count.toNat < capacity s.cfg) :
    CaptureInv (recordDelta n s) := by
  have hcount : (Machine.recordDelta n s).count.toNat = s.count.toNat + 1 := count_succ_toNat s hc
  refine ⟨⟨by rw [hcount]; exact hc, fun hf => ?_, fun hs => ?_, h.responding_triggered, fun _ ht' => ?_⟩,
    bufferWf_recordDelta n s hc⟩
  · exact absurd (h.finished_full hf).2 hc.ne
  · exact absurd (h.stateFinished_full hs) hc.ne
  · cases ht.symm.trans ht'

/-- Marking a full buffer as finished. -/
theorem CaptureInv.raiseCompletion (ht : s.triggered = true) (hc : s.count.toNat = capacity s.cfg) :
    CaptureInv (raiseCompletion s) := by
  refine ⟨⟨h.count_le, fun _ => ⟨ht, hc⟩, h.stateFinished_full, h.responding_triggered, fun _ ht' => ?_⟩, h.buffer⟩
  cases ht.symm.trans ht'

/-- An edge, recorded or not. -/
theorem CaptureInv.captureEdge (n : Word) : CaptureInv (captureEdge n s) := by
  rcases captureEdge_cases n s with ⟨ht, hc, e⟩ | ⟨ht, hc, e⟩ | ⟨_, e⟩ <;> rw [e]
  · exact h.recordDelta n ht (by omega)
  · have hlt : s.count.toNat < capacity s.cfg := by omega
    exact (h.recordDelta n ht hlt).raiseCompletion ht ((count_succ_toNat s hlt).trans hc)
  · exact h.congr rfl

end

/-- Every instruction keeps it. -/
theorem Effect.captureInv {i : Instr} {s t : State} (h : Effect i s t) (hs : CaptureInv s) : CaptureInv t := by
  cases h with
  | startCycle _ hi ht => exact (hs.congr (t := accept s) rfl).startCycle _ hi ht
  | advance => exact (hs.congr (t := accept s) rfl).advancePsm
  | handleNothing => exact (hs.congr (t := { accept s with hreq := false }) rfl).advancePsm
  | reset | handleError => exact (cleaned_cleanup _).captureInv
  | decode | handleFinished => exact (cleaned_decodeBody _).captureInv
  | edge n => exact (hs.captureEdge n).congr rfl
  | _ => exact hs.congr rfl

/-! ## What keeps the second half -/

/-- -32768 is no temperature (42_decoder.md R165). -/
theorem temperature_ne (bs : Vector Byte 5) : temperature bs ≠ 0x8000#16 := by
  intro h
  obtain ⟨hmin, _⟩ := toInt_temperature_bounds bs
  rw [h] at hmin
  exact absurd hmin (by decide)

/-- After hardware reset nothing is decoded and the Reading is 0. -/
theorem readingInv_hwReset (s : State) : ReadingInv (hwReset s) :=
  ⟨fun ⟨hdok, _⟩ => (nomatch hdok), fun hdok => (nomatch hdok), fun hdcerr => (nomatch hdcerr), fun _ => ⟨rfl, rfl⟩,
    (by decide : (0 : Half) ≠ 0x8000#16)⟩

section

variable {s : State} (h : ReadingInv s)
include h

/-- A new cycle forgets the outcome of the last decode and keeps the Reading. -/
theorem ReadingInv.startCycle (now : Word) : ReadingInv (startCycle now s) :=
  ⟨fun ⟨hdok, _⟩ => (nomatch hdok), fun hdok => (nomatch hdok), fun hdcerr => (nomatch hdcerr), h.noReading,
    h.temp_range⟩

/-- A decode stores the Reading of bytes that pass the checksum and keeps the Reading for others. -/
theorem ReadingInv.decodeBody : ReadingInv (decodeBody s) := by
  rcases decodeBody_cases s with ⟨hok, e⟩ | ⟨hbad, e⟩ <;> rw [e]
  · exact ⟨fun ⟨_, hdcerr⟩ => (nomatch hdcerr), fun _ => ⟨hok, rfl, rfl, rfl⟩, fun hdcerr => (nomatch hdcerr),
      fun hvalid => (nomatch hvalid), temperature_ne _⟩
  · exact ⟨fun ⟨hdok, _⟩ => (nomatch hdok), fun hdok => (nomatch hdok), fun _ => hbad, h.noReading, h.temp_range⟩

end

/-- What an edge does not touch: the PSM, the trigger, the bytes and the Reading among it. -/
theorem captureEdge_kept (n : Word) (s : State) : ∃ finished error hreq count deltas, captureEdge n s =
    { s with finished := finished, error := error, hreq := hreq, count := count, deltas := deltas } := by
  rcases captureEdge_cases n s with ⟨_, _, e⟩ | ⟨_, _, e⟩ | ⟨_, e⟩ <;> exact ⟨_, _, _, _, _, e⟩

theorem captureEdge_reading (n : Word) (s : State) : (captureEdge n s).reading = s.reading := by
  obtain ⟨_, _, _, _, _, e⟩ := captureEdge_kept n s
  rw [e]
  rfl

/-- Every instruction keeps it. -/
theorem Effect.readingInv {i : Instr} {s t : State} (h : Effect i s t) (hs : ReadingInv s) : ReadingInv t := by
  cases h with
  | startCycle => exact (hs.congr (t := accept s) rfl).startCycle _
  | decode => exact (hs.congr (t := accept s) rfl).decodeBody
  | handleFinished => exact (hs.congr (t := Machine.advancePsm { accept s with hreq := false }) rfl).decodeBody
  | edge n => exact hs.congr (captureEdge_reading n s)
  | _ => exact hs.congr rfl

/-! ## Steps and runs -/

/-- The invariant does not speak of `rst`, the time, the events and the bus data. -/
theorem Inv.congr {s t : State} (h : Inv s) (hcapture : t.capture = s.capture) (hreading : t.reading = s.reading) :
    Inv t := by
  obtain ⟨hc, hr⟩ := (inv_iff s).mp h
  exact (inv_iff t).mpr ⟨hc.congr hcapture, hr.congr hreading⟩

/-- Every instruction keeps the invariant. -/
theorem Effect.inv {i : Instr} {s t : State} (h : Effect i s t) (hs : Inv s) : Inv t := by
  obtain ⟨hc, hr⟩ := (inv_iff s).mp hs
  exact (inv_iff t).mpr ⟨h.captureInv hc, h.readingInv hr⟩

theorem inv_hwReset (s : State) : Inv (hwReset s) :=
  (inv_iff _).mpr ⟨(cleaned_hwReset s).captureInv, readingInv_hwReset s⟩

/-- Settles O41: hardware reset brings the invariant about, the instructions keep it (`Effect.inv`), and the rest of the
step does not touch what it speaks of. -/
theorem stepKeepsTheInvariant : Obligations.StepKeepsTheInvariant := by
  unfold Obligations.StepKeepsTheInvariant
  intro s t hs h
  rcases step_kinds h with ⟨now, rest, _, rfl⟩ | ⟨e, rest, i, _, _, hx⟩ | ⟨_, _, _, _, rfl⟩
  · exact inv_hwReset _
  · exact (exec_effect hx).inv (hs.congr rfl rfl)
  · exact hs.congr rfl rfl

/-- Settles O42: the reset constant is what a hardware reset leaves. -/
theorem resetSatisfiesTheInvariant : Obligations.ResetSatisfiesTheInvariant := by
  unfold Obligations.ResetSatisfiesTheInvariant
  exact fun c events => inv_hwReset { State.reset with cfg := c, events := events }

/-- Settles O43: the invariant and the build are kept along the run. -/
theorem reachableStatesSatisfyTheStatedInvariants : Obligations.ReachableStatesSatisfyTheStatedInvariants := by
  unfold Obligations.ReachableStatesSatisfyTheStatedInvariants
  intro c events k t hrun
  obtain ⟨hinv, rfl⟩ := run_keeps (I := fun t => Inv t ∧ t.cfg = c)
    (fun s t hs h => ⟨stepKeepsTheInvariant s t hs.1 h, (step_cfg h).trans hs.2⟩) k _ t
    ⟨resetSatisfiesTheInvariant c events, rfl⟩ hrun
  exact ⟨hinv.count_le, hinv.finished_full, hinv.stateFinished_full, hinv.responding_triggered, hinv.idle_empty⟩

end Sys2Proof.Machine

/-! # What only some instructions do (10_state.md R20 to R30, 41_psm.md R131, R132) -/

namespace Sys2Proof.Machine

/-! ## `finished` (R22) -/

/-- Settles O46: of the effects only the edge that completes the buffer sets `finished`. -/
theorem onlyTheFillingEdgeSetsFinished : Obligations.OnlyTheFillingEdgeSetsFinished := by
  unfold Obligations.OnlyTheFillingEdgeSetsFinished
  intro i s t h hs ht
  cases exec_effect h with
  | edge n hi =>
    rcases captureEdge_cases n s with ⟨_, _, e⟩ | ⟨htrig, hN, e⟩ | ⟨_, e⟩ <;> rw [e] at ht ⊢
    · cases hs.symm.trans ht
    · exact ⟨⟨n, hi⟩, htrig, hN, (count_succ_toNat s (by omega)).trans hN, rfl⟩
    · cases hs.symm.trans ht
  | reset | handleError => cases ht
  | decode | handleFinished => cases (cleaned_decodeBody _).finished.symm.trans ht
  | _ => cases hs.symm.trans ht

/-! ## `hreq` (R24) -/

section

variable {i : Instr} {s t : State} (h : Effect i s t)
include h

/-- HANDLE alone clears the request. -/
theorem Effect.handle_of_hreq_falls (hs : s.hreq = true) (ht : t.hreq = false) : Issues .handle 6#32 i := by
  cases h with
  | handleFinished hi | handleError hi | handleNothing hi => exact hi
  | decode => cases hs.symm.trans ((decodeBody_hreq (accept s)).symm.trans ht)
  | edge n =>
    rcases captureEdge_cases n s with ⟨_, _, e⟩ | ⟨_, _, e⟩ | ⟨_, e⟩ <;> rw [e] at ht
    · cases hs.symm.trans ht
    · cases ht
    · cases ht
  | _ => cases hs.symm.trans ht

/-- Only an edge raises it, an unexpected one or the one that fills the buffer. -/
theorem Effect.edge_of_hreq_rises (hs : s.hreq = false) (ht : t.hreq = true) : (∃ n, i = .edge n) ∧
    (s.triggered = false ∨ capacity s.cfg ≤ s.count.toNat ∨ s.count.toNat + 1 = capacity s.cfg) := by
  cases h with
  | edge n hi =>
    refine ⟨⟨n, hi⟩, ?_⟩
    rcases captureEdge_cases n s with ⟨_, _, e⟩ | ⟨_, hN, _⟩ | ⟨htrig | hfull, _⟩
    · rw [e] at ht
      cases hs.symm.trans ht
    · exact .inr (.inr hN)
    · exact .inl htrig
    · exact .inr (.inl hfull)
  | handleFinished => cases (decodeBody_hreq _).symm.trans ht
  | handleError | handleNothing => cases ht
  | decode => cases hs.symm.trans ((decodeBody_hreq (accept s)).symm.trans ht)
  | _ => cases hs.symm.trans ht

end

/-- An event that decodes to a command or to the other spelling of it is the CMD write of its word. -/
theorem eq_busWrite_of_decode_issues {e : Event} {i c : Instr} {w : Word} (hc : encodeCommand c = some w)
    (hd : decode e = .ok i) (hi : Issues c w i) : e = .busWrite e.time cmdOffset 4 w := by
  obtain ⟨_, hencode⟩ := encodeOfDecodeIsTheEvent e i hd
  rcases hi with rfl | rfl
  · exact hencode.symm.trans (encode_of_encodeCommand e.time hc)
  · exact hencode.symm

/-- Settles O47: the two lemmas about the effects; in a step HANDLE comes as its CMD write. -/
theorem requestIsSetByEdgesAndClearedByHandle : Obligations.RequestIsSetByEdgesAndClearedByHandle := by
  unfold Obligations.RequestIsSetByEdgesAndClearedByHandle
  refine ⟨fun i s t h => (exec_effect h).handle_of_hreq_falls, fun i s t h => (exec_effect h).edge_of_hreq_rises,
    fun s t h hs ht => ?_⟩
  rcases step_kinds h with ⟨now, rest, he, _⟩ | ⟨e, rest, i, he, hd, hx⟩ | ⟨_, _, _, _, rfl⟩
  · exact .inl ⟨now, rest, he⟩
  · have hi : Issues .handle 6#32 i := (exec_effect hx).handle_of_hreq_falls hs ht
    rw [eq_busWrite_of_decode_issues rfl hd hi] at he
    exact .inr ⟨e.time, rest, he⟩
  · cases hs.symm.trans ht

/-! ## The PSM state (R20) -/

/-- Settles O48: the other effects leave the PSM state as it is. -/
theorem onlyFourCommandsMoveThePsm : Obligations.OnlyFourCommandsMoveThePsm := by
  unfold Obligations.OnlyFourCommandsMoveThePsm
  intro i s t h hne
  cases exec_effect h with
  | advance hi => exact .inl hi
  | reset hi => exact .inr (.inl hi)
  | decode hi => exact .inr (.inr (.inl hi))
  | handleFinished hi | handleError hi | handleNothing hi => exact .inr (.inr (.inr hi))
  | edge n =>
    obtain ⟨_, _, _, _, _, e⟩ := captureEdge_kept n s
    rw [e] at hne
    exact absurd rfl hne
  | _ => exact absurd rfl hne

/-! ## The bytes and the Reading (R28 to R31) -/

/-- The decoded bytes of the buffer. -/
def State.decoded (s : State) : Vector Byte 5 := decodeBytes s.cfg s.deltas

/-- The bytes, the Reading and its flags as a decode leaves them (R160). -/
def State.decodeOutcome (s : State) : Vector Byte 5 × Half × Half × Bool × Bool × Bool :=
  if checksumOk s.decoded then (s.decoded, temperature s.decoded, humidity s.decoded, true, true, false)
  else (s.decoded, s.temp, s.hum, s.valid, false, true)

theorem decodeBody_reading (s : State) : (decodeBody s).reading = s.decodeOutcome := by
  rcases decodeBody_cases s with ⟨hok, e⟩ | ⟨hbad, e⟩ <;> rw [e]
  · exact (if_pos hok).symm
  · exact (if_neg (Bool.eq_false_iff.mp hbad)).symm

/-- What can become of the bytes, the Reading and the flags that go with them. -/
inductive ReadingChange (i : Instr) (s t : State) : Prop where
  | kept (hr : t.reading = s.reading)
  | cleared (h : Issues .trigger 1#32 i) (hr : t.reading = (#v[0, 0, 0, 0, 0], s.temp, s.hum, s.valid, false, false))
  | stored (hf : s.state = .finished ∨ s.nextState = .finished) (hok : checksumOk s.decoded = true)
      (hr : t.reading = (s.decoded, temperature s.decoded, humidity s.decoded, true, true, false))
  | failed (hf : s.state = .finished ∨ s.nextState = .finished)
      (hr : t.reading = (s.decoded, s.temp, s.hum, s.valid, false, true))

theorem ReadingChange.of_decode {i : Instr} {s t : State} (hf : s.state = .finished ∨ s.nextState = .finished)
    (hr : t.reading = s.decodeOutcome) : ReadingChange i s t := by
  unfold State.decodeOutcome at hr
  split at hr
  · next hok => exact .stored hf hok hr
  · exact .failed hf hr

/-- Only TRIGGER and a decode at Finished touch them. -/
theorem Effect.readingChange {i : Instr} {s t : State} (h : Effect i s t) : ReadingChange i s t := by
  cases h with
  | startCycle hi => exact .cleared hi rfl
  | decode _ hs => exact .of_decode (.inl hs) (decodeBody_reading (accept s))
  | handleFinished _ hn => exact .of_decode (.inr hn) (decodeBody_reading _)
  | edge n => exact .kept (captureEdge_reading n s)
  | _ => exact .kept rfl

/-- An equation of `reading`, field by field. -/
theorem reading_eq_iff (t : State) (bytes : Vector Byte 5) (temp hum : Half) (valid dok dcerr : Bool) :
    t.reading = (bytes, temp, hum, valid, dok, dcerr) ↔ t.bytes = bytes ∧ t.temp = temp ∧ t.hum = hum ∧
      t.valid = valid ∧ t.dok = dok ∧ t.dcerr = dcerr := by
  simp only [State.reading, Prod.mk.injEq]

/-- Settles O49: of the four changes only a stored decode moves the Reading or `valid`. -/
theorem readingChangesOnlyByAValidDecode : Obligations.ReadingChangesOnlyByAValidDecode := by
  unfold Obligations.ReadingChangesOnlyByAValidDecode
  intro i s t h hne
  have hmoved (hkept : t.temp = s.temp ∧ t.hum = s.hum ∧ t.valid = s.valid) : False := by
    obtain ⟨htemp, hhum, hvalid⟩ := hkept
    rcases hne with hne | hne | hne
    · exact hne htemp
    · exact hne hhum
    · exact hne hvalid
  cases (exec_effect h).readingChange with
  | kept hr | cleared _ hr | failed _ hr =>
    obtain ⟨_, htemp, hhum, hvalid, _⟩ := (reading_eq_iff ..).mp hr
    exact (hmoved ⟨htemp, hhum, hvalid⟩).elim
  | stored hf hok hr =>
    obtain ⟨hbytes, htemp, hhum, hvalid, hdok, _⟩ := (reading_eq_iff ..).mp hr
    rw [hbytes]
    exact ⟨hf, rfl, (checksumOk_iff _).mp hok, htemp, hhum, hvalid, hdok⟩

/-- A block with room in its buffer is not in Finished and does not get there. -/
theorem StatedInv.not_finished_of_partial {s : State} (h : StatedInv s) (hc : s.count.toNat < capacity s.cfg) :
    ¬(s.state = .finished ∨ s.nextState = .finished) := by
  have hstate : s.state ≠ .finished := fun hs => hc.ne (h.stateFinished_full hs)
  obtain ⟨hreached, _⟩ := nextState_reached s
  rintro (hs | hn)
  · exact hstate hs
  · rcases hreached hn with hs | hf
    · exact hstate hs
    · exact hc.ne (h.finished_full hf).2

/-- Settles O52: with room in the buffer nothing is decoded, so the bytes are kept or cleared. -/
theorem partialBufferIsNeverDecoded : Obligations.PartialBufferIsNeverDecoded := by
  unfold Obligations.PartialBufferIsNeverDecoded
  intro i s t hinv hc h
  cases (exec_effect h).readingChange with
  | kept hr =>
    obtain ⟨hbytes, htemp, hhum, hvalid, hdok, hdcerr⟩ := (reading_eq_iff ..).mp hr
    exact ⟨htemp, hhum, hvalid, .inl ⟨hbytes, hdok, hdcerr⟩⟩
  | cleared hi hr =>
    obtain ⟨hbytes, htemp, hhum, hvalid, hdok, hdcerr⟩ := (reading_eq_iff ..).mp hr
    exact ⟨htemp, hhum, hvalid, .inr ⟨hbytes, hdok, hdcerr, hi⟩⟩
  | stored hf | failed hf => exact absurd hf (hinv.not_finished_of_partial hc)

/-! ## The buffer and the cycle (R21, R25 to R27) -/

/-- What can become of the cycle in flight, its buffer and `last_edge`. -/
inductive BufferChange (i : Instr) (s t : State) : Prop where
  | kept (htrig : t.triggered = s.triggered) (hd : t.deltas = s.deltas) (hc : t.count = s.count)
      (hl : t.lastEdge = s.lastEdge)
  | cleaned (h : Cleaned t)
  | started (h : Issues .trigger 1#32 i) (hs : s.state = .idle) (ht : s.triggered = false) (hd : t.deltas = [])
      (hc : t.count = 0)
  | edge (n : Word) (h : i = .edge n) (e : t = { captureEdge n s with lastEdge := n })

theorem Effect.bufferChange {i : Instr} {s t : State} (h : Effect i s t) : BufferChange i s t := by
  cases h with
  | startCycle hi hs ht => exact .started hi hs ht rfl rfl
  | reset | handleError => exact .cleaned (cleaned_cleanup _)
  | decode | handleFinished => exact .cleaned (cleaned_decodeBody _)
  | edge n hi => exact .edge n hi rfl
  | _ => exact .kept rfl rfl rfl rfl

/-- Settles O50: of the four changes only an expected edge writes an entry. -/
theorem onlyEdgesWriteTheBuffer : Obligations.OnlyEdgesWriteTheBuffer := by
  unfold Obligations.OnlyEdgesWriteTheBuffer
  intro i s t h
  cases (exec_effect h).bufferChange with
  | kept _ hd hc => exact .inl ⟨hd, hc⟩
  | cleaned hclean => exact .inr (.inl ⟨hclean.deltas, hclean.count⟩)
  | started _ _ _ hd hc => exact .inr (.inl ⟨hd, hc⟩)
  | edge n hi ht =>
    subst ht
    dsimp only
    by_cases hexp : s.expectsEdge = true
    · obtain ⟨htrig, hc⟩ := (expectsEdge_iff s).mp hexp
      obtain ⟨hdeltas, hcount⟩ := captureEdge_buffer n htrig hc
      rw [hdeltas, hcount]
      exact .inr (.inr ⟨n, hi, htrig, hc, readDelta_putDelta_self .., count_succ_toNat s hc,
        fun _ hj => readDelta_putDelta_lt _ _ hj⟩)
    · have hun : captureEdge n s = raiseUnexpectedEdge s := if_neg hexp
      rw [hun]
      exact .inl ⟨rfl, rfl⟩

/-- An edge neither starts nor ends a cycle. -/
theorem captureEdge_triggered (n : Word) (s : State) : (captureEdge n s).triggered = s.triggered := by
  obtain ⟨_, _, _, _, _, e⟩ := captureEdge_kept n s
  rw [e]

/-- Settles O51: of the four changes only the start of a cycle raises `triggered`. -/
theorem cyclesStartOnlyFromIdle : Obligations.CyclesStartOnlyFromIdle := by
  unfold Obligations.CyclesStartOnlyFromIdle
  refine ⟨fun i s t h hs ht => ?_, fun s hbusy => exec_trigger_of_busy ?_⟩
  · cases (exec_effect h).bufferChange with
    | kept htrig => cases hs.symm.trans (htrig.symm.trans ht)
    | cleaned hclean => cases hclean.triggered.symm.trans ht
    | started hi hidle _ hd hc => exact ⟨hidle, hc, hd, hi⟩
    | edge n _ e =>
      subst e
      cases hs.symm.trans ((captureEdge_triggered n s).symm.trans ht)
  · rwa [not_and_or, Bool.not_eq_false] at hbusy

end Sys2Proof.Machine

/-! # Runs of edges (40_edge_capture.md R100 to R105, 30_encoding.md R86) -/

namespace Sys2Proof.Machine

/-! ## The first delta of a cycle (R101, R105) -/

/-- The first edge of a cycle is entry 0, measured from `last_edge`. -/
theorem exec_edge_first {s t : State} {n : Word} (ht : s.triggered = true) (hc : s.count = 0)
    (h : exec (.edge n) s = .next t) :
    t.count = 1 ∧ t.deltas.length = 1 ∧
      (readDelta t.deltas 0).toNat = (n.toNat + 2 ^ 32 - s.lastEdge.toNat) % 2 ^ 32 := by
  obtain rfl : { captureEdge n s with lastEdge := n } = t := Host.Outcome.next.inj h
  have hzero : s.count.toNat = 0 := by rw [hc]; rfl
  have hroom : s.count.toNat < capacity s.cfg := hzero.trans_lt (Nat.lt_of_lt_of_le (by decide) (le_capacity s.cfg))
  obtain ⟨hdeltas, hcount⟩ := captureEdge_buffer n ht hroom
  dsimp only
  rw [hdeltas, hcount, hzero, hc, readDelta_putDelta_self, length_putDelta, BitVec.toNat_sub]
  have hlast := s.lastEdge.isLt
  exact ⟨rfl, rfl, congrArg (· % 2 ^ 32) (by omega)⟩

/-- The cycle in flight is the same in both states: `last_edge`, `count` and the buffer. -/
structure SameCycle (s t : State) : Prop where
  lastEdge : t.lastEdge = s.lastEdge
  count : t.count = s.count
  deltas : t.deltas = s.deltas

/-- An event that decodes to an edge is that edge. -/
theorem eq_edge_of_decode {e : Event} {n : Word} (hd : decode e = .ok (.edge n)) : e = .edge n :=
  (encodeOfDecodeIsTheEvent e _ hd).2.symm

/-- A step of a cycle that takes no edge and does not end the cycle. -/
theorem step_sameCycle {s t : State} (hs : s.triggered = true) (hedge : ∀ n rest, s.events ≠ .edge n :: rest)
    (h : step s = .next t) (ht : t.triggered = true) : SameCycle s t := by
  rcases step_kinds h with ⟨now, rest, _, rfl⟩ | ⟨e, rest, i, he, hd, hx⟩ | ⟨_, _, _, _, rfl⟩
  · cases ht
  · cases (exec_effect hx).bufferChange with
    | kept _ hdeltas hcount hlast => exact ⟨hlast, hcount, hdeltas⟩
    | cleaned hclean => cases hclean.triggered.symm.trans ht
    | started _ _ hs' => cases hs.symm.trans hs'
    | edge n hi =>
      subst hi
      rw [eq_edge_of_decode hd] at he
      exact absurd he (hedge n rest)
  · exact ⟨rfl, rfl, rfl⟩

/-- The first step of a run that completes. -/
theorem run_succ_cases {k : Nat} {s t : State} (h : Host.Core.run core (k + 1) s = .next t) :
    ∃ s', step s = .next s' ∧ Host.Core.run core k s' = .next t := by
  simp only [Host.Core.run] at h
  split at h
  · next s' h' => exact ⟨s', h', h⟩
  · cases h
  · cases h

/-- The same along a run, while the cycle is in flight. -/
theorem run_sameCycle {k : Nat} {s t : State} (hedge : ∀ e ∈ s.events.take k, ∀ n, e ≠ .edge n)
    (hflight : ∀ j w, j ≤ k → Host.Core.run core j s = .next w → w.triggered = true)
    (h : Host.Core.run core k s = .next t) : SameCycle s t := by
  induction k generalizing s with
  | zero => cases h; exact ⟨rfl, rfl, rfl⟩
  | succ k ih =>
    obtain ⟨s', hstep, hrun⟩ := run_succ_cases h
    have hfirst : SameCycle s s' := by
      refine step_sameCycle (hflight 0 s (Nat.zero_le _) rfl) (fun n rest he => ?_) hstep
        (hflight 1 s' (by omega) (run_succ (k := 0) hstep))
      exact hedge (.edge n) (by rw [he]; exact List.mem_cons_self) n rfl
    have htake : s'.events.take k = (s.events.take (k + 1)).tail := by
      rw [step_events hstep, List.tail_take_eq_take_tail, Nat.add_sub_cancel]
    have hrest : SameCycle s' t := ih (fun e he => hedge e (List.mem_of_mem_tail (htake ▸ he)))
      (fun j w hj hw => hflight (j + 1) w (by omega) ((run_succ hstep).trans hw)) hrun
    obtain ⟨hlast, hcount, hdeltas⟩ := hrest
    exact ⟨hlast.trans hfirst.lastEdge, hcount.trans hfirst.count, hdeltas.trans hfirst.deltas⟩

/-- Settles O25: TRIGGER sets `last_edge` to its time and empties the buffer, `run_sameCycle` keeps both, and the edge
is the first one. -/
theorem firstDeltaIsMeasuredFromTrigger : Obligations.FirstDeltaIsMeasuredFromTrigger := by
  unfold Obligations.FirstDeltaIsMeasuredFromTrigger
  refine ⟨fun s t u n hs ht htrig hedge => ?_, fun s t hs hedge h ht => ?_,
    fun s t u v k n rest hs ht htrig hnone hflight hrun hrst he hv => ?_⟩
  · cases (exec_trigger_of_idle hs ht).symm.trans htrig
    exact exec_edge_first (startCycle_triggered _ _) rfl hedge
  · obtain ⟨hlast, hcount, hdeltas⟩ := step_sameCycle hs hedge h ht
    exact ⟨hlast, hcount, hdeltas⟩
  · cases (exec_trigger_of_idle hs ht).symm.trans htrig
    obtain ⟨hlast, hcount, _⟩ := run_sameCycle hnone hflight hrun
    rw [step_of_decode hrst he rfl] at hv
    have hfirst := exec_edge_first (s := takeEvent (.edge n) rest u) (hflight k u le_rfl hrun) hcount hv
    rwa [takeEvent_lastEdge, hlast] at hfirst

/-! ## A list of edges (30_encoding.md R86) -/

/-- The state after an edge that a cycle with room takes `d` microseconds after the last one. -/
def afterEdge (d : Word) (rest : List Event) (s : State) : State :=
  { s with
    deltas := putDelta s.deltas s.count.toNat d, count := s.count + 1, lastEdge := s.lastEdge + d, events := rest,
    finished := s.finished || decide (s.count.toNat + 1 = capacity s.cfg),
    hreq := s.hreq || decide (s.count.toNat + 1 = capacity s.cfg),
    timeUs := s.lastEdge + d, busData := none }

theorem step_afterEdge {s : State} {d : Word} {rest : List Event} (hrst : s.rst = false) (ht : s.triggered = true)
    (hc : s.count.toNat < capacity s.cfg) (he : s.events = .edge (s.lastEdge + d) :: rest) :
    step s = .next (afterEdge d rest s) := by
  have hd : s.lastEdge + d - s.lastEdge = d := by rw [BitVec.add_comm, BitVec.add_sub_cancel]
  have hcapture := captureEdge_of_expected (s := takeEvent (.edge (s.lastEdge + d)) rest s) (s.lastEdge + d) ht hc
  rw [takeEvent_count, takeEvent_cfg] at hcapture
  rw [step_of_decode hrst he rfl, exec_edge, hcapture]
  by_cases hN : s.count.toNat + 1 = capacity s.cfg
  · rw [if_pos hN]
    simp [afterEdge, raiseCompletion, requestHandling, markFinished, recordDelta, hN, hd, takeEvent, Event.time]
  · rw [if_neg hN]
    simp [afterEdge, recordDelta, hN, hd, takeEvent, Event.time]

section

variable (d : Word) (rest : List Event) {s : State} (hc : s.count.toNat < capacity s.cfg)
include hc

theorem afterEdge_count_toNat : (afterEdge d rest s).count.toNat = s.count.toNat + 1 := count_succ_toNat s hc

theorem bufferWf_afterEdge : bufferWf (afterEdge d rest s) = true := by
  rw [bufferWf_iff, afterEdge_count_toNat d rest hc]
  exact length_putDelta ..

end

/-- The buffer is full after one edge or after the others, of the edges `d :: ds` that fit. -/
theorem filled_cons {count N : Nat} {d : Word} {ds : List Word} (h : count + (d :: ds).length ≤ N) :
    (decide (count + 1 = N) || decide (ds ≠ [] ∧ count + 1 + ds.length = N)) =
      decide (d :: ds ≠ [] ∧ count + (d :: ds).length = N) := by
  rw [List.length_cons] at h ⊢
  cases ds with
  | nil => simp
  | cons d' ds =>
    rw [List.length_cons] at h ⊢
    have hne : count + 1 ≠ N := by omega
    have hsum : count + 1 + (ds.length + 1) = count + (ds.length + 1 + 1) := by omega
    simp [hne, hsum]

/-- Settles O27: induction over the list, one `afterEdge` at a time. -/
theorem edgesAreRecordedInOrder : Obligations.EdgesAreRecordedInOrder := by
  unfold Obligations.EdgesAreRecordedInOrder
  intro s ds rest
  induction ds generalizing s with
  | nil =>
    intro _ _ _ _ he
    refine ⟨s, rfl, rfl, ?_⟩
    apply State.ext <;> simp
    exact he
  | cons d ds ih =>
    intro hrst ht hb hfit he
    have hlength : (d :: ds).length = ds.length + 1 := rfl
    have hc : s.count.toNat < capacity s.cfg := by omega
    have hcount := afterEdge_count_toNat d (edgeEvents (s.lastEdge + d) ds ++ rest) hc
    obtain ⟨t, hrun, htcount, heq⟩ := ih (afterEdge d (edgeEvents (s.lastEdge + d) ds ++ rest) s) hrst ht
      (bufferWf_afterEdge d _ hc) (by rw [hcount]; change _ ≤ capacity s.cfg; omega) rfl
    rw [hcount] at htcount
    refine ⟨t, (run_succ (step_afterEdge hrst ht hc he)).trans hrun, by omega, heq.trans ?_⟩
    have hdeltas : putDelta s.deltas s.count.toNat d = s.deltas ++ [d] := by
      rw [← (bufferWf_iff s).mp hb, putDelta_length_eq]
    simp only [afterEdge, count_succ_toNat s hc, hdeltas, Bool.or_assoc, filled_cons hfit, List.append_assoc,
      List.singleton_append, List.sum_cons, BitVec.add_assoc]
    rfl

end Sys2Proof.Machine

/-! # What a buffer decodes to (42_decoder.md R161 to R163, 95_test_vectors.md L1) -/

namespace Sys2Proof.Machine

/-! ## A byte and its bits -/

/-- Bit `i` of the stream of byte `j`, first the most significant. -/
theorem getLsbD_assembleByte (bit : Nat → Bool) (j : Nat) {i : Nat} (hi : i < 8) :
    (assembleByte bit j).getLsbD (7 - i) = bit (8 * j + i) := by
  simp only [assembleByte, BitVec.getLsbD_append, BitVec.getLsbD_ofBool]
  interval_cases i <;> simp

/-- A byte is known by its eight bits, first the most significant. -/
theorem assembleByte_eq {bit : Nat → Bool} {j : Nat} {b : Byte}
    (h : ∀ i, i < 8 → bit (8 * j + i) = b.getLsbD (7 - i)) : assembleByte bit j = b := by
  refine BitVec.eq_of_getLsbD_eq fun k hk => ?_
  have hk7 : k = 7 - (7 - k) := by omega
  rw [hk7, getLsbD_assembleByte _ _ (by omega), h _ (by omega)]

/-- A buffer decodes to the five bytes whose bits its stream gives. -/
theorem decodeBytes_eq {c : Config} {ds : List Word} {bs : Vector Byte 5}
    (h : ∀ (j : Fin 5) (i : Nat), i < 8 → streamBit c ds (8 * j.val + i) = bs[j].getLsbD (7 - i)) :
    decodeBytes c ds = bs := by
  refine Vector.ext fun j hj => ?_
  exact (getElem_decodeBytes c ds ⟨j, hj⟩).trans (assembleByte_eq (h ⟨j, hj⟩))

/-- Settles O29: a bit of the stream is read from the second delta of its pair alone. -/
theorem decoderReadsOnlyHighDurations : Obligations.DecoderReadsOnlyHighDurations := by
  unfold Obligations.DecoderReadsOnlyHighDurations
  intro c ds es h
  refine decodeBytes_eq fun j i hi => ?_
  rw [getElem_decodeBytes, getLsbD_assembleByte _ _ hi, streamBit_eq_decide, streamBit_eq_decide, h _ (by omega)]

/-! ## The waveform of five bytes (30_encoding.md R86) -/

section

variable (lo zero one : Word)

theorem length_byteDeltas (b : Byte) : (byteDeltas lo zero one b).length = 16 := rfl

theorem length_dataDeltas (bs : Vector Byte 5) : (dataDeltas lo zero one bs).length = 80 := rfl

/-- The HIGH duration of bit `i` of a byte. -/
theorem readDelta_byteDeltas (b : Byte) {i : Nat} (hi : i < 8) :
    readDelta (byteDeltas lo zero one b) (2 * i + 1) = if b.getLsbD (7 - i) then one else zero := by
  interval_cases i <;> rfl

/-- The deltas of byte `j` start at entry `16 * j`. -/
theorem readDelta_dataDeltas (bs : Vector Byte 5) (j : Fin 5) {m : Nat} (hm : m < 16) :
    readDelta (dataDeltas lo zero one bs) (16 * j.val + m) = readDelta (byteDeltas lo zero one bs[j]) m := by
  simp only [readDelta, dataDeltas, List.getD_eq_getElem?_getD]
  fin_cases j <;>
    simp (disch := (simp only [List.length_append, length_byteDeltas]; omega)) only [List.getElem?_append_left,
      List.getElem?_append_right, List.length_append, length_byteDeltas, Nat.reduceMul, Nat.reduceAdd,
      Nat.zero_add, Nat.add_sub_cancel_left]
  all_goals rfl

end

/-- An entry behind the preamble. -/
theorem readDelta_append (pre ds : List Word) (m : Nat) : readDelta (pre ++ ds) (pre.length + m) = readDelta ds m := by
  rw [readDelta, readDelta, List.getD_append_right _ _ _ _ (Nat.le_add_right _ _), Nat.add_sub_cancel_left]

/-- Settles O30: the HIGH duration of bit `i` of byte `j` is `one` or `zero`, and T lies between them. -/
theorem waveformDecodesToItsBytes : Obligations.WaveformDecodesToItsBytes := by
  unfold Obligations.WaveformDecodesToItsBytes
  intro c pre bs lo zero one hpre hzero hone
  refine decodeBytes_eq fun j i hi => ?_
  have hentry : preambleCount c + 2 * (8 * j.val + i) + 1 = pre.length + (16 * j.val + (2 * i + 1)) := by omega
  rw [streamBit_eq_decide, hentry, readDelta_append, readDelta_dataDeltas lo zero one bs j (by omega),
    readDelta_byteDeltas lo zero one _ hi]
  cases bs[j].getLsbD (7 - i)
  · exact decide_eq_false (not_lt.mpr hzero)
  · exact decide_eq_true hone

/-! ## A buffer of zeros (R163) -/

/-- With no HIGH duration above T every byte is 0. -/
theorem decodeBytes_eq_zero {c : Config} {ds : List Word}
    (h : ∀ k, k < 40 → (readDelta ds (preambleCount c + 2 * k + 1)).toNat ≤ c.threshold.toNat) :
    decodeBytes c ds = #v[0, 0, 0, 0, 0] := by
  refine decodeBytes_eq fun j i hi => ?_
  have hzero : (#v[0, 0, 0, 0, 0] : Vector Byte 5)[j] = 0#8 := by fin_cases j <;> rfl
  rw [streamBit_eq_decide, decide_eq_false (not_lt.mpr (h _ (by omega))), hzero, BitVec.getLsbD_zero]

/-- Settles O33: zero bytes pass the checksum, and their Reading is 0. -/
theorem allLowBufferStoresZeroReading : Obligations.AllLowBufferStoresZeroReading := by
  unfold Obligations.AllLowBufferStoresZeroReading
  intro s hs h
  have hbytes := decodeBytes_eq_zero h
  have hok : checksumOk (decodeBytes s.cfg s.deltas) = true := by rw [hbytes]; rfl
  have htemp : temperature (decodeBytes s.cfg s.deltas) = 0 := by rw [hbytes]; decide
  have hhum : humidity (decodeBytes s.cfg s.deltas) = 0 := by rw [hbytes]; decide
  exact ⟨_, exec_decode_of_checksumOk hs hok, hbytes, htemp, hhum, rfl, rfl, rfl⟩

/-! ## A whole cycle -/

/-- Where the cycle starts, the entries that the buffer's list may still hold do not matter. -/
theorem run_edges_of_count_zero {s : State} {d : Word} {ds : List Word} {rest : List Event} (hrst : s.rst = false)
    (ht : s.triggered = true) (hc : s.count = 0) (he : s.events = edgeEvents s.lastEdge (d :: ds) ++ rest) (k : Nat) :
    Host.Core.run core (k + 1) s = Host.Core.run core (k + 1) { s with deltas := [] } := by
  have hroom : s.count.toNat < capacity s.cfg := by
    rw [hc]
    exact Nat.lt_of_lt_of_le (by decide) (le_capacity s.cfg)
  have hsame : afterEdge d (edgeEvents (s.lastEdge + d) ds ++ rest) { s with deltas := [] } =
      afterEdge d (edgeEvents (s.lastEdge + d) ds ++ rest) s := by
    simp [afterEdge, putDelta, hc]
  have hempty := step_afterEdge (s := { s with deltas := [] }) hrst ht hroom he
  have hstep := step_afterEdge hrst ht hroom he
  exact (run_succ (hstep.trans (congrArg _ hsame.symm))).trans (run_succ hempty).symm

/-- What the edges that fill the buffer with `ds` leave for HANDLE. -/
structure Filled (ds : List Word) (rest : List Event) (s t : State) : Prop where
  cfg : t.cfg = s.cfg
  state : t.state = s.state
  error : t.error = s.error
  finished : t.finished = true
  deltas : t.deltas = ds
  temp : t.temp = s.temp
  hum : t.hum = s.hum
  valid : t.valid = s.valid
  rst : t.rst = s.rst
  events : t.events = rest

/-- As many edges as the buffer has entries fill it. -/
theorem run_edges_filled {s : State} {ds : List Word} {rest : List Event} (hrst : s.rst = false)
    (ht : s.triggered = true) (hc : s.count = 0) (hds : ds.length = capacity s.cfg)
    (he : s.events = edgeEvents s.lastEdge ds ++ rest) :
    ∃ t : State, Host.Core.run core (capacity s.cfg) s = .next t ∧ Filled ds rest s t := by
  have hzero : s.count.toNat = 0 := by rw [hc]; rfl
  have hfits : s.count.toNat + ds.length = capacity s.cfg := by omega
  obtain ⟨d, ds, rfl⟩ : ∃ d es, ds = d :: es :=
    List.exists_cons_of_length_pos (by have := le_capacity s.cfg; omega)
  obtain ⟨t, hrun, _, heq⟩ := edgesAreRecordedInOrder { s with deltas := [] } (d :: ds) rest hrst ht
    ((bufferWf_iff _).mpr hzero.symm) hfits.le he
  have hfield {α : Type} (f : State → α) := congrArg f heq
  have hfinished : t.finished = (s.finished || decide (d :: ds ≠ [] ∧ s.count.toNat + (d :: ds).length =
      capacity s.cfg)) := hfield State.finished
  rw [decide_eq_true ⟨List.cons_ne_nil d ds, hfits⟩, Bool.or_true] at hfinished
  rw [← hds]
  exact ⟨t, (run_edges_of_count_zero hrst ht hc he ds.length).trans hrun, hfield State.cfg, hfield State.state,
    hfield State.error, hfinished, hfield State.deltas, hfield State.temp, hfield State.hum, hfield State.valid,
    hfield State.rst, hfield State.events⟩

/-- HANDLE that reaches Finished: cleanup, no request, and the outcome of the decode. -/
theorem exec_handle_decoded {s : State} (hn : s.nextState = .finished) :
    ∃ t, exec .handle s = .next t ∧ Cleaned t ∧ t.hreq = false ∧ t.events = s.events ∧
      t.reading = s.decodeOutcome := by
  have hhandle : exec .handle s = .next (decodeBody (advancePsm { accept s with hreq := false })) :=
    execHandle_finished hn
  obtain ⟨_, hevents, _⟩ := (exec_effect hhandle).inputs
  exact ⟨_, hhandle, cleaned_decodeBody _, decodeBody_hreq _, hevents, decodeBody_reading _⟩

/-- Settles O34: the edges fill the buffer with the waveform, HANDLE advances to Finished under both values of PRIO, and
the waveform decodes to its bytes. -/
theorem wholeCycleReadsTheSentBytes : Obligations.WholeCycleReadsTheSentBytes := by
  unfold Obligations.WholeCycleReadsTheSentBytes
  intro s pre bs lo zero one now rest hrst hs ht herr hc hpre hzero hone he
  have hds : (pre ++ dataDeltas lo zero one bs).length = capacity s.cfg := by
    rw [List.length_append, length_dataDeltas, hpre]
    rfl
  obtain ⟨u, hrun, hu⟩ := run_edges_filled hrst ht hc hds he
  have hnext : u.nextState = .finished :=
    nextState_of_responding_finished (hu.state.trans hs) hu.finished (hu.error.trans herr)
  have hdecoded : (takeEvent (cmdWrite now 6#32) rest u).decoded = bs := by
    rw [State.decoded, takeEvent_cfg, takeEvent_deltas, hu.cfg, hu.deltas]
    exact waveformDecodesToItsBytes s.cfg pre bs lo zero one hpre hzero hone
  obtain ⟨t, hhandle, hclean, hhreq, hevents, hreading⟩ :=
    exec_handle_decoded (s := takeEvent (cmdWrite now 6#32) rest u) hnext
  have hstep : step u = .next t := (step_cmdWrite (hu.rst.trans hrst) hu.events rfl).trans hhandle
  rw [State.decodeOutcome, hdecoded, takeEvent_temp, takeEvent_hum, takeEvent_valid, hu.temp, hu.hum,
    hu.valid] at hreading
  have hbytes : t.bytes = bs := by
    split at hreading <;> exact congrArg Prod.fst hreading
  refine ⟨t, (run_add hrun).trans (run_succ (k := 0) hstep), hevents, hclean.state, hclean.triggered, hclean.finished,
    hclean.error, hhreq, hclean.count, hbytes, fun hok => ?_, fun hbad => ?_⟩
  · rw [if_pos ((checksumOk_iff bs).mpr hok)] at hreading
    obtain ⟨_, htemp, hhum, hvalid, hdok, hdcerr⟩ := (reading_eq_iff ..).mp hreading
    exact ⟨hhum, htemp, hvalid, hdok, hdcerr⟩
  · rw [if_neg (mt (checksumOk_iff bs).mp hbad)] at hreading
    obtain ⟨_, htemp, hhum, hvalid, hdok, hdcerr⟩ := (reading_eq_iff ..).mp hreading
    exact ⟨hhum, htemp, hvalid, hdok, hdcerr⟩

end Sys2Proof.Machine
